-- ==== Sys2Proof/Word.lean ====
section
/-! DEFINITION. The words of the block's two encodings: bytes, 32-bit command and result words, 16-bit
display frames (30_encoding.md rules R80, R86, R90). -/

namespace Sys2Proof

/-- One framebuffer row, one frame half, one packed Position: 8 bits. -/
abbrev Byte := BitVec 8

/-- A command word or a result word: one 32-bit unit over the host port (20_memory.md rule R66). -/
abbrev Word := BitVec 32

/-- A display frame as one 16-bit word, address byte in the upper half (30_encoding.md rule R90). -/
abbrev FrameWord := BitVec 16

/-- What a decoder is given: a command word of the host, or a 16-bit frame the matrix driver is to send. The
two encodings of the block are separate (30_encoding.md, opening), so a word is marked with the one it is in. -/
inductive InWord where
  | command (c : Word)
  | frame (w : FrameWord)
deriving DecidableEq, Repr

end Sys2Proof
end

