-- ==== Sys2Proof/Config.lean ====
section
/-! DEFINITION. The configuration record (00_scope.md rules R8 to R12), the two value types of the game it is
written in (Position, Direction), and the values no source fixes. -/

namespace Sys2Proof

/-- A grid cell; both coordinates are 0 to 7 (00_scope.md rules R8, R15). -/
structure Pos where
  x : BitVec 3
  y : BitVec 3
deriving DecidableEq, Repr, Inhabited

/-- A direction of motion (00_scope.md rule R17). -/
inductive Dir where
  | up
  | down
  | left
  | right
deriving DecidableEq, Repr, Inhabited

/-- The immutable configuration record, with the widths of 00_scope.md rule R9. The two intervals are in
milliseconds and only the host reads them. -/
structure Config where
  deadLo : BitVec 12
  deadHi : BitVec 12
  frameInterval : Nat
  blinkInterval : Nat
  intensity : BitVec 4
  initHead : Pos
  initLen : BitVec 7
  initDir : Dir
  initFood : Pos
deriving DecidableEq, Repr

/-- What a segment slot beyond the snake holds after a construction (42_game_state.md rule R151 "left
unspecified"; 93_implementation_defined.md U3): a free value, one for each construction and slot. Log entry 6. -/
opaque Config.staleSegment : Nat → Nat → Pos

/-- `ADC_MAX`, the largest sample a channel can take, left open and at most 4095 (00_scope.md rule R11). No rule
of the block reads it; it stands only in the host's duties. Log entry 13. -/
opaque Config.adcMax : BitVec 12

end Sys2Proof
end

