-- ==== Sys2Proof/Machine/State.lean ====
section
/-! DEFINITION. The state (10_state.md rule R20), the reasons a step stops, and the state after reset
(70_reset_and_hazards.md rule R240). -/

namespace Sys2Proof.Machine

/-- The framebuffer: 8 rows of 8 bits (10_state.md rule R21). -/
abbrev Framebuffer := Vector Byte 8

/-- The segment array: 64 Positions (10_state.md rule R26). -/
abbrev SegArray := Vector Pos 64

/-- The game-level state (10_state.md rule R33, 42_game_state.md rule R170). -/
inductive GState where
  | running
  | restarting
deriving DecidableEq, Repr

/-- The three output lines, true for level 1 (10_state.md rule R25). -/
structure Lines where
  cs : Bool
  clk : Bool
  din : Bool
deriving DecidableEq, Repr

/-- One register write of the display chip, as the recorded frame stream lists it (00_scope.md rule R7). -/
structure Frame where
  addr : Byte
  data : Byte
deriving DecidableEq, Repr

/-- One command the host issues: its word, and the draws it supplies with a GE.TICK (00_scope.md rule R6,
42_game_state.md rule R162). -/
structure HostCommand where
  word : Word
  draws : List Pos
deriving DecidableEq, Repr

/-- The machine. The fields down to `geValid` are 10_state.md rule R20's table; `cfg` is the immutable parameter of
00_scope.md rule R9 (log entry 1); the rest is the interface: what the host has issued and what the block has
returned and sent (00_scope.md rules R6, R7), and the model's own `pendingFrame` and `fresh`. -/
structure State where
  /-- The framebuffer rows. -/
  fb : Framebuffer
  /-- Whether the framebuffer has been written since reset (10_state.md rule R23). -/
  fbValid : Bool
  /-- The levels of CS, CLK and DIN. -/
  lines : Lines
  /-- The segment array, head at index 0. -/
  seg : SegArray
  /-- The snake length, 7 bits. -/
  len : BitVec 7
  /-- The committed direction. -/
  dir : Dir
  /-- The pending direction. -/
  pend : Dir
  /-- The food position. -/
  food : Pos
  /-- The blink phase. -/
  vis : Bool
  /-- The game-level state. -/
  gstate : GState
  /-- Whether the game engine has been constructed since reset (10_state.md rule R34). -/
  geValid : Bool
  /-- The configuration the block was built with. No step changes it. -/
  cfg : Config
  /-- The draws supplied with the command being executed; empty between commands. -/
  draws : List Pos
  /-- The commands the host has issued and the block has not yet taken, oldest first. -/
  port : List HostCommand
  /-- The model's own: a frame put directly at the frame primitive (log entry 7). None in every run of commands. -/
  pendingFrame : Option FrameWord
  /-- The result words returned to the host, oldest first. -/
  results : List Word
  /-- The frames sent on the display lines, oldest first. -/
  frames : List Frame
  /-- The model's own: how many constructions have drawn a free value for the unspecified slots (log entry 6). -/
  fresh : Nat
deriving DecidableEq, Repr

/-- What stops the machine with a fault (00_scope.md rule R16). The first two are the spec's own, written as `fault(...)` in
the pseudocode of the commands that raise them, on the spec's own bits `fbValid` and `geValid`; a faulted state takes no
further command (70_reset_and_hazards.md rule R244). All are safe, "toward unprovable" in the spec's words. -/
inductive Fault where
  /-- Raised by MD.GETPIX, MD.FLUSH, GE.QUERY 0x80 to 0x87, and any other flush, while `fbValid` is 0:
  `FramebufferUnwritten` (40_matrix_driver.md rules R114, R117, R120; 42_game_state.md rule R169; 70_reset_and_hazards.md rule
  R244; 93_implementation_defined.md U1). Safe. -/
  | framebufferUnwritten
  /-- Raised by GE.STEER, GE.TICK, GE.BLINK and GE.QUERY 0x00 to 0x7F while `geValid` is 0:
  `GameUnwritten` (41_input_sampler.md rule R141; 42_game_state.md rules R153, R168, R169; 70_reset_and_hazards.md rule R244;
  93_implementation_defined.md U2). Safe. -/
  | gameUnwritten
  /-- Raised by a growing GE.TICK whose draw list runs out before a draw is accepted or 512 are rejected: the tick
  has no step (42_game_state.md rule R162, 93_implementation_defined.md U10). A stuck state. Safe. -/
  | drawsRanOut
deriving DecidableEq, Repr

/-- What the model gives no meaning to (00_scope.md rule R16). -/
inductive Refusal where
  /-- An instruction without a meaning yet, by its mnemonic. Raised by `exec` alone. Safe. -/
  | notModelled (mnemonic : String)
  /-- Raised by the decoder on a reserved operation code (30_encoding.md rule R84). Safe. -/
  | reservedOp
  /-- Raised by the decoder on a nonzero should-be-zero bit (30_encoding.md rule R82). Safe. -/
  | reservedBits
  /-- Raised by the decoder, and by GE.QUERY itself, on a reserved selector (30_encoding.md rule R89). Safe. -/
  | reservedSelector
  /-- Raised by the decoder on a 16-bit frame whose address is no display register the block writes
  (30_encoding.md rule R93). Safe. -/
  | unusedFrameAddress
  /-- Raised by `step` before anything else when the configuration breaks 00_scope.md rule R10. Safe. -/
  | invalidConfig
deriving DecidableEq, Repr

/-- The configuration `State.reset` holds: CFG0 of 95_test_vectors.md, with intervals of 0. DESIGN CHOICE: the spec
gives no configuration, it is supplied from outside (00_scope.md rule R9). Unsafe; log entry 1. -/
def cfgAtReset : Config :=
  { deadLo := 300, deadHi := 700, frameInterval := 0, blinkInterval := 0, intensity := 8,
    initHead := ⟨3, 1⟩, initLen := 3, initDir := .right, initFood := ⟨5, 5⟩ }

/-- The block right after power-on reset (70_reset_and_hazards.md rule R240): the lines at their reset levels, nothing
written, nothing sent. The framebuffer and the game registers are unspecified there; the zeros (UP, Running) are
DESIGN CHOICE, log entry 2. -/
def State.reset : State :=
  { fb := Vector.replicate 8 0
    fbValid := false
    lines := ⟨true, false, false⟩
    seg := Vector.replicate 64 ⟨0, 0⟩
    len := 0
    dir := .up
    pend := .up
    food := ⟨0, 0⟩
    vis := false
    gstate := .running
    geValid := false
    cfg := cfgAtReset
    draws := []
    port := []
    pendingFrame := none
    results := []
    frames := []
    fresh := 0 }

end Sys2Proof.Machine
end

