-- ==== Sys2Proof/Machine/Flags.lean ====
section
/-! DEFINITION. The block has no flags and no status register (10_state.md rule R40); the one status it reports is
the outcome code of GE.TICK (30_encoding.md rule R87, 60_exceptions.md rules R200, R211). -/

namespace Sys2Proof.Machine

/-- The three fatal conditions (60_exceptions.md rule R200). -/
inductive Cause where
  | outOfBounds
  | selfCollision
  | foodPlacementExhausted
deriving DecidableEq, Repr

/-- The outcome code of a fatal condition (60_exceptions.md rule R200). -/
def causeCode : Cause → Word
  | .outOfBounds => 2
  | .selfCollision => 3
  | .foodPlacementExhausted => 4

/-- The outcome code of a tick that moved the snake (30_encoding.md rule R87). -/
def codeMoved : Word := 0

/-- The outcome code of a tick that grew the snake (30_encoding.md rule R87). -/
def codeGrew : Word := 1

end Sys2Proof.Machine
end

