-- ==== Sys2Proof/Syntax.lean ====
section
/-! DEFINITION. The syntax: one constructor for each row of spec/opcode_table.json, the eleven commands of
30_encoding.md rule R83 and the thirteen display frames of rule R91. -/

namespace Sys2Proof

/-- A command of the host, or a register write of the matrix driver. Operand widths are the field widths of
30_encoding.md rules R81 and R90. -/
inductive Instr where
  | mdInit
  | mdSetpix (row col : BitVec 3) (on : Bool)
  | mdGetpix (row col : BitVec 3)
  | mdSetint (level : Byte)
  | mdShdn (sd : Bool)
  | mdFlush
  | geReset
  | geSteer (h v : BitVec 12)
  | geTick
  | geBlink
  | geQuery (sel : Byte)
  | frameRow0 (data : Byte)
  | frameRow1 (data : Byte)
  | frameRow2 (data : Byte)
  | frameRow3 (data : Byte)
  | frameRow4 (data : Byte)
  | frameRow5 (data : Byte)
  | frameRow6 (data : Byte)
  | frameRow7 (data : Byte)
  | frameDecode (data : Byte)
  | frameIntensity (data : Byte)
  | frameScanlimit (data : Byte)
  | frameShutdown (data : Byte)
  | frameDisptest (data : Byte)
deriving DecidableEq, Repr

end Sys2Proof
end

