-- ==== Sys2Proof/WellFormed.lean ====
section
/-! DEFINITION. Which instructions spell something. The operand types already bound every field of
30_encoding.md rule R81 by its width, so one check is left: a query's selector is one of rule R88. -/

namespace Sys2Proof

/-- The selectors of 30_encoding.md rule R88: 0x00 to 0x06, 0x40 to 0x7F, 0x80 to 0x87. -/
def selectorDefined (sel : Byte) : Bool :=
  decide (sel.toNat ≤ 0x06) || decide (0x40 ≤ sel.toNat ∧ sel.toNat ≤ 0x87)

/-- An instruction that spells a command or a frame. A frame carries any data byte (20_memory.md rule R63, "one
8-bit data value per write"); which bytes the block's own commands send is `Machine.sentByBlock`. -/
def Instr.wellFormed : Instr → Bool
  | .mdInit => true
  | .mdSetpix _ _ _ => true
  | .mdGetpix _ _ => true
  | .mdSetint _ => true
  | .mdShdn _ => true
  | .mdFlush => true
  | .geReset => true
  | .geSteer _ _ => true
  | .geTick => true
  | .geBlink => true
  | .geQuery sel => selectorDefined sel
  | .frameRow0 _ => true
  | .frameRow1 _ => true
  | .frameRow2 _ => true
  | .frameRow3 _ => true
  | .frameRow4 _ => true
  | .frameRow5 _ => true
  | .frameRow6 _ => true
  | .frameRow7 _ => true
  | .frameDecode _ => true
  | .frameIntensity _ => true
  | .frameScanlimit _ => true
  | .frameShutdown _ => true
  | .frameDisptest _ => true

end Sys2Proof
end

