-- ==== Sys2Proof/Decode.lean ====
section
/-! DEFINITION. The decoder, total on command words and frames and rejecting by name, and after it the encoder,
both from the formats and codes of 30_encoding.md rules R80 to R93. -/

namespace Sys2Proof

/-- Why a word spells nothing. -/
inductive Reject where
  /-- The operation code is 0x0, 0x7, 0xD, 0xE or 0xF (30_encoding.md rule R84). -/
  | reservedOp
  /-- A bit its format says should be zero is 1 (30_encoding.md rule R82). -/
  | reservedBits
  /-- A query selector in 0x07 to 0x3F or 0x88 to 0xFF (30_encoding.md rule R89). -/
  | reservedSelector
  /-- A frame address the block never sends: 0x00, 0x0D, 0x0E, 0x10 to 0xFF (30_encoding.md rule R93). -/
  | unusedFrameAddress
deriving DecidableEq, Repr

/-- `OP = c[31:28]` (30_encoding.md rule R80). -/
def opcode (c : Word) : BitVec 4 := c.extractLsb' 28 4

/-- The instruction, unless a should-be-zero bit of its format's mask is 1 (30_encoding.md rules R81, R82). -/
def checkSbz (mask c : Word) (i : Instr) : Except Reject Instr :=
  if c &&& mask = 0 then .ok i else .error .reservedBits

/-- The reserved selectors of 30_encoding.md rule R89, 0x07 to 0x3F and 0x88 to 0xFF. -/
def selectorReserved (sel : Byte) : Bool :=
  decide (0x07 ≤ sel.toNat ∧ sel.toNat ≤ 0x3F) || decide (0x88 ≤ sel.toNat)

/-- Format Q: the should-be-zero bits first, then the selector (30_encoding.md rules R80, R89). -/
def decodeQuery (c : Word) : Except Reject Instr :=
  if c &&& 0x0FFFFF00 = 0 then
    if selectorReserved (c.extractLsb' 0 8) then .error .reservedSelector
    else .ok (.geQuery (c.extractLsb' 0 8))
  else .error .reservedBits

/-- A command word: the operation code selects the command (30_encoding.md rule R83), then its format's reserved
bits are checked (rules R80, R81). -/
def decodeCommand (c : Word) : Except Reject Instr :=
  match (opcode c).toNat with
  | 0x1 => checkSbz 0x0FFFFFFF c .mdInit
  | 0x2 => checkSbz 0x0FFFF88E c (.mdSetpix (c.extractLsb' 8 3) (c.extractLsb' 4 3) (c.getLsbD 0))
  | 0x3 => checkSbz 0x0FFFF88F c (.mdGetpix (c.extractLsb' 8 3) (c.extractLsb' 4 3))
  | 0x4 => checkSbz 0x0FFFFF00 c (.mdSetint (c.extractLsb' 0 8))
  | 0x5 => checkSbz 0x0FFFFFFE c (.mdShdn (c.getLsbD 0))
  | 0x6 => checkSbz 0x0FFFFFFF c .mdFlush
  | 0x8 => checkSbz 0x0FFFFFFF c .geReset
  | 0x9 => checkSbz 0x0F000000 c (.geSteer (c.extractLsb' 12 12) (c.extractLsb' 0 12))
  | 0xA => checkSbz 0x0FFFFFFF c .geTick
  | 0xB => checkSbz 0x0FFFFFFF c .geBlink
  | 0xC => decodeQuery c
  | _ => .error .reservedOp

/-- A frame: its address byte names the display register (30_encoding.md rules R90, R91), its low byte is the
data. -/
def decodeFrame (w : FrameWord) : Except Reject Instr :=
  match (w.extractLsb' 8 8).toNat with
  | 0x01 => .ok (.frameRow0 (w.extractLsb' 0 8))
  | 0x02 => .ok (.frameRow1 (w.extractLsb' 0 8))
  | 0x03 => .ok (.frameRow2 (w.extractLsb' 0 8))
  | 0x04 => .ok (.frameRow3 (w.extractLsb' 0 8))
  | 0x05 => .ok (.frameRow4 (w.extractLsb' 0 8))
  | 0x06 => .ok (.frameRow5 (w.extractLsb' 0 8))
  | 0x07 => .ok (.frameRow6 (w.extractLsb' 0 8))
  | 0x08 => .ok (.frameRow7 (w.extractLsb' 0 8))
  | 0x09 => .ok (.frameDecode (w.extractLsb' 0 8))
  | 0x0A => .ok (.frameIntensity (w.extractLsb' 0 8))
  | 0x0B => .ok (.frameScanlimit (w.extractLsb' 0 8))
  | 0x0C => .ok (.frameShutdown (w.extractLsb' 0 8))
  | 0x0F => .ok (.frameDisptest (w.extractLsb' 0 8))
  | _ => .error .unusedFrameAddress

/-- The decoder. -/
def decode : InWord → Except Reject Instr
  | .command c => decodeCommand c
  | .frame w => decodeFrame w

/-- Format N (30_encoding.md rule R81). -/
def wordN (op : BitVec 4) : Word := op ++ 0#28

/-- Format P (30_encoding.md rule R81). -/
def wordP (op : BitVec 4) (row col : BitVec 3) (on : Bool) : Word :=
  op ++ 0#17 ++ row ++ 0#1 ++ col ++ 0#3 ++ BitVec.ofBool on

/-- Format Pg (30_encoding.md rule R81). -/
def wordPg (op : BitVec 4) (row col : BitVec 3) : Word := op ++ 0#17 ++ row ++ 0#1 ++ col ++ 0#4

/-- Formats B and Q, which differ only in their field's name (30_encoding.md rule R81). -/
def wordB (op : BitVec 4) (field : Byte) : Word := op ++ 0#20 ++ field

/-- Format F (30_encoding.md rule R81). -/
def wordF (op : BitVec 4) (flag : Bool) : Word := op ++ 0#27 ++ BitVec.ofBool flag

/-- Format S (30_encoding.md rule R81). -/
def wordS (op : BitVec 4) (h v : BitVec 12) : Word := op ++ 0#4 ++ h ++ v

/-- `w = {addr[7:0], data[7:0]}` (30_encoding.md rule R90). -/
def frameWord (addr data : Byte) : FrameWord := addr ++ data

/-- The encoder: the word that spells an instruction (30_encoding.md rules R81, R83, R90, R91). -/
def encode : Instr → InWord
  | .mdInit => .command (wordN 0x1)
  | .mdSetpix row col on => .command (wordP 0x2 row col on)
  | .mdGetpix row col => .command (wordPg 0x3 row col)
  | .mdSetint level => .command (wordB 0x4 level)
  | .mdShdn sd => .command (wordF 0x5 sd)
  | .mdFlush => .command (wordN 0x6)
  | .geReset => .command (wordN 0x8)
  | .geSteer h v => .command (wordS 0x9 h v)
  | .geTick => .command (wordN 0xA)
  | .geBlink => .command (wordN 0xB)
  | .geQuery sel => .command (wordB 0xC sel)
  | .frameRow0 data => .frame (frameWord 0x01 data)
  | .frameRow1 data => .frame (frameWord 0x02 data)
  | .frameRow2 data => .frame (frameWord 0x03 data)
  | .frameRow3 data => .frame (frameWord 0x04 data)
  | .frameRow4 data => .frame (frameWord 0x05 data)
  | .frameRow5 data => .frame (frameWord 0x06 data)
  | .frameRow6 data => .frame (frameWord 0x07 data)
  | .frameRow7 data => .frame (frameWord 0x08 data)
  | .frameDecode data => .frame (frameWord 0x09 data)
  | .frameIntensity data => .frame (frameWord 0x0A data)
  | .frameScanlimit data => .frame (frameWord 0x0B data)
  | .frameShutdown data => .frame (frameWord 0x0C data)
  | .frameDisptest data => .frame (frameWord 0x0F data)

/-- A word of `nbits` bits as the opcode table lists it: 16 bits are a frame, 32 bits a command. -/
def tableWord (nbits w : Nat) : InWord :=
  if nbits ≤ 16 then .frame (BitVec.ofNat 16 w) else .command (BitVec.ofNat 32 w)

/-- The instruction the decoder reads from a word of the opcode table. -/
def decodeTableWord (nbits w : Nat) : Option Instr :=
  match decode (tableWord nbits w) with
  | .ok i => some i
  | .error _ => none

end Sys2Proof
end

