-- ==== Sys2Proof/Machine/Operands.lean ====
section
/-! DEFINITION. The operand forms: pixels of a framebuffer, coordinates and unit steps, direction codes, packed
positions, query selectors, and the dead zone. -/

namespace Sys2Proof.Machine

/-- `0x80 >> c`, the bit of column `c` (10_state.md rule R22: bit `7 - c`). -/
def columnMask (c : BitVec 3) : Byte := 0x80#8 >>> c.toNat

/-- The bit of row `r`, column `c` (10_state.md rule R22). -/
def fbPixel (fb : Framebuffer) (r c : BitVec 3) : Bool := fb[r.toNat].getLsbD (7 - c.toNat)

/-- `SetPixel(r, c, b)` on a framebuffer (40_matrix_driver.md rule R114). -/
def fbSet (fb : Framebuffer) (r c : BitVec 3) (b : Bool) : Framebuffer :=
  fb.set r.toNat ((fb[r.toNat] &&& ~~~columnMask c) ||| if b then columnMask c else 0)

/-- Position `p` is shown at row `p.y`, column `p.x` (10_state.md rule R35). -/
def fbSetAt (fb : Framebuffer) (p : Pos) (b : Bool) : Framebuffer := fbSet fb p.y p.x b

/-- `Pixel(p)` (10_state.md rule R35). -/
def fbPixelAt (fb : Framebuffer) (p : Pos) : Bool := fbPixel fb p.y p.x

/-- The framebuffer with every row 0x00. -/
def fbClear : Framebuffer := Vector.replicate 8 0

/-- The 2-bit direction code (10_state.md rule R29). -/
def dirCode : Dir → BitVec 2
  | .up => 0
  | .down => 1
  | .left => 2
  | .right => 3

/-- The x part of a unit step, in integers (42_game_state.md rule R154). -/
def dx : Dir → Int
  | .up => 0
  | .down => 0
  | .left => -1
  | .right => 1

/-- The y part of a unit step, in integers (42_game_state.md rule R154). -/
def dy : Dir → Int
  | .up => -1
  | .down => 1
  | .left => 0
  | .right => 0

/-- Moving along a row (00_scope.md rule R17). -/
def isHorizontal : Dir → Bool
  | .up => false
  | .down => false
  | .left => true
  | .right => true

/-- Perpendicular: one in {UP, DOWN}, the other in {LEFT, RIGHT} (00_scope.md rule R17). -/
def perpendicular (a b : Dir) : Bool := isHorizontal a != isHorizontal b

/-- `Pack(p) = {0, p.x[2:0], 0, p.y[2:0]}` (10_state.md rule R27, 42_game_state.md rule R169). -/
def pack (p : Pos) : Byte := 0#1 ++ p.x ++ 0#1 ++ p.y

/-- Both coordinates in [0,7] (42_game_state.md rule R155). -/
def inGrid (x y : Int) : Bool := decide (0 ≤ x ∧ x ≤ 7 ∧ 0 ≤ y ∧ y ≤ 7)

/-- The Position of two coordinates, meant for coordinates in the grid. -/
def posOf (x y : Int) : Pos := ⟨BitVec.ofInt 3 x, BitVec.ofInt 3 y⟩

/-- The cell one step from `p` in direction `d`, none when it is off the grid (42_game_state.md rules R154, R155). -/
def neighbour (d : Dir) (p : Pos) : Option Pos :=
  let cx := (p.x.toNat : Int) + dx d
  let cy := (p.y.toNat : Int) + dy d
  if inGrid cx cy then some (posOf cx cy) else none

/-- What a query reads (30_encoding.md rule R88). -/
inductive Selector where
  | len
  | dir
  | pend
  | head
  | food
  | vis
  | gstate
  | seg (i : BitVec 6)
  | fbRow (r : BitVec 3)
deriving DecidableEq, Repr

/-- The selector a byte names, none for a reserved one (30_encoding.md rules R88, R89). -/
def selectorOf (sel : Byte) : Option Selector :=
  if sel = 0x00 then some .len
  else if sel = 0x01 then some .dir
  else if sel = 0x02 then some .pend
  else if sel = 0x03 then some .head
  else if sel = 0x04 then some .food
  else if sel = 0x05 then some .vis
  else if sel = 0x06 then some .gstate
  else if 0x40 ≤ sel.toNat ∧ sel.toNat ≤ 0x7F then some (.seg (BitVec.ofNat 6 (sel.toNat - 0x40)))
  else if 0x80 ≤ sel.toNat ∧ sel.toNat ≤ 0x87 then some (.fbRow (BitVec.ofNat 3 (sel.toNat - 0x80)))
  else none

/-- A sample against the closed dead zone `[deadLo, deadHi]`: `low` below it, `high` above it, `none` for no change
inside it (41_input_sampler.md rules R141, R143). -/
def steerAxis (cfg : Config) (sample : BitVec 12) (low high : Dir) : Option Dir :=
  if sample < cfg.deadLo then some low
  else if cfg.deadHi < sample then some high
  else none

/-- The direction two samples ask for: only the channel perpendicular to the committed direction is consulted
(41_input_sampler.md rules R141, R142). -/
def steerDir (cfg : Config) (committed : Dir) (h v : BitVec 12) : Option Dir :=
  if isHorizontal committed then steerAxis cfg v .up .down else steerAxis cfg h .left .right

end Sys2Proof.Machine
end

