-- ==== Sys2Proof/Machine/Ops.lean ====
section
/-! DEFINITION. The operations the instructions share: the frame primitive and its line waveform, pixels, the
flush, returning a result, the snake, construction, the restart, food placement, and the validity of a
configuration. -/

namespace Sys2Proof.Machine

open Host (Outcome)

/-- One operation after another; a fault or a refusal ends the command. -/
def andThen (o : Outcome State Fault Refusal) (f : State → Outcome State Fault Refusal) :
    Outcome State Fault Refusal :=
  match o with
  | .next s => f s
  | .fault r => .fault r
  | .refused r => .refused r

/-! ### The frame primitive -/

/-- One change of an output line, true for level 1 (40_matrix_driver.md rule R110). -/
inductive LineEvent where
  | cs (level : Bool)
  | clk (level : Bool)
  | din (level : Bool)
deriving DecidableEq, Repr

/-- The lines after one event. -/
def applyEvent (l : Lines) : LineEvent → Lines
  | .cs b => { l with cs := b }
  | .clk b => { l with clk := b }
  | .din b => { l with din := b }

/-- The lines after a sequence of events. -/
def runEvents (l : Lines) (es : List LineEvent) : Lines := es.foldl applyEvent l

/-- The bits of a frame in the order they are sent, `w[15]` first (20_memory.md rule R64). -/
def frameBits (w : FrameWord) : List Bool := (List.range 16).map fun i => w.getLsbD (15 - i)

/-- One bit on the wire: data while the clock is low, a rising edge, a falling edge (40_matrix_driver.md rule R112). -/
def bitEvents (b : Bool) : List LineEvent := [.din b, .clk true, .clk false]

/-- The 50 line events of one frame (40_matrix_driver.md rule R112). -/
def frameEvents (w : FrameWord) : List LineEvent :=
  .cs false :: ((frameBits w).flatMap bitEvents ++ [.cs true])

/-- The line events of one register write, `w = {addr, data}` (40_matrix_driver.md rule R112). -/
def writeEvents (f : Frame) : List LineEvent := frameEvents (frameWord f.addr f.data)

/-- Register writes one after another: their line events in order, and the pairs appended to the frame sequence; nothing
is read back and nothing can fail (40_matrix_driver.md rules R111 to R113). -/
def emitFrames (fs : List Frame) (s : State) : State :=
  { s with lines := runEvents s.lines (fs.flatMap writeEvents), frames := s.frames ++ fs }

/-- `EmitFrame(addr, data)` (40_matrix_driver.md rules R111, R112). -/
def emitFrame (addr data : Byte) (s : State) : State := emitFrames [⟨addr, data⟩] s

/-- The line events of all frames sent so far (00_scope.md rule R7, the finer observation). -/
def lineTrace (s : State) : List LineEvent := s.frames.flatMap writeEvents

/-! ### The framebuffer -/

/-- `SetPixel(r, c, b)`: one framebuffer bit, no frame (40_matrix_driver.md rule R114). -/
def setPixel (r c : BitVec 3) (b : Bool) (s : State) : State := { s with fb := fbSet s.fb r c b }

/-- A pixel write of the game engine, at a Position (10_state.md rule R35). -/
def setPixelAt (p : Pos) (b : Bool) (s : State) : State := setPixel p.y p.x b s

/-- The write of row `r`, `EmitFrame(r + 1, fb[r])` (10_state.md rule R21, 40_matrix_driver.md rule R114). -/
def rowFrame (fb : Framebuffer) (r : BitVec 3) : Frame := ⟨r.setWidth 8 + 1, fb[r.toNat]⟩

/-- The eight row writes in order 0 to 7 (40_matrix_driver.md rule R114). -/
def emitRows (s : State) : State := emitFrames ([0, 1, 2, 3, 4, 5, 6, 7].map (rowFrame s.fb)) s

/-- `Flush()`: a fault while the framebuffer is unwritten, else the eight row frames (40_matrix_driver.md rule
R114). -/
def flush (s : State) : Outcome State Fault Refusal :=
  if s.fbValid then .next (emitRows s) else .fault .framebufferUnwritten

/-- The end of a command: its result word goes to the host, and any draw it did not use is discarded (30_encoding.md
rule R86, 42_game_state.md rule R162). -/
def finish (res : Word) (s : State) : Outcome State Fault Refusal :=
  .next { s with results := s.results ++ [res], draws := [] }

/-- A flush and then the end of the command. -/
def flushAndFinish (res : Word) (s : State) : Outcome State Fault Refusal := andThen (flush s) (finish res)

/-! ### The snake -/

/-- `seg[i]`. -/
def segAt (s : State) (i : BitVec 6) : Pos := s.seg[i.toNat]

/-- The live segments `seg[0]` to `seg[len-1]` (10_state.md rule R26). -/
def body (s : State) : List Pos := s.seg.toList.take s.len.toNat

/-- `seg[0]`. -/
def headOf (s : State) : Pos := segAt s 0

/-- `seg[len-1]`. -/
def tailOf (s : State) : Pos := segAt s ((s.len - 1).setWidth 6)

/-- `c` prepended and every segment moved one index up, so that `n` segments are live; the other slots are not
written (42_game_state.md rule R161). -/
def pushHead (c : Pos) (n : Nat) (seg : SegArray) : SegArray :=
  Vector.ofFn fun i => if i.val < n then (if i.val = 0 then c else seg[i.val - 1]) else seg[i]

/-! ### Construction -/

/-- The x coordinate of the `i`-th initial segment (42_game_state.md rule R151). -/
def initX (cfg : Config) (i : Nat) : Int := cfg.initHead.x.toNat - i * dx cfg.initDir

/-- The y coordinate of the `i`-th initial segment (42_game_state.md rule R151). -/
def initY (cfg : Config) (i : Nat) : Int := cfg.initHead.y.toNat - i * dy cfg.initDir

/-- The `i`-th initial segment. -/
def initSegment (cfg : Config) (i : Nat) : Pos := posOf (initX cfg i) (initY cfg i)

/-- The initial body, straight behind the head (42_game_state.md rule R151). -/
def initBody (cfg : Config) : List Pos := (List.range cfg.initLen.toNat).map (initSegment cfg)

/-- The configuration is one the block may run with (00_scope.md rule R10). `intensity <= 15` and `initFood` in the
grid hold by the fields' widths. -/
def configValid (cfg : Config) : Bool :=
  decide (cfg.deadLo ≤ cfg.deadHi) && decide (1 ≤ cfg.initLen.toNat ∧ cfg.initLen.toNat ≤ 64) &&
    (List.range cfg.initLen.toNat).all (fun i => inGrid (initX cfg i) (initY cfg i)) &&
    decide (initBody cfg).Nodup && !(initBody cfg).contains cfg.initFood

/-- The whole image of a snake and a shown food (42_game_state.md rule R152). -/
def imageOf (snake : List Pos) (food : Pos) : Framebuffer :=
  fbSetAt (snake.foldl (fun fb p => fbSetAt fb p true) fbClear) food true

/-- The segment array a construction leaves: the initial body, and free values in the slots beyond it. -/
def initSeg (cfg : Config) (occasion : Nat) : SegArray :=
  Vector.ofFn fun i =>
    if i.val < cfg.initLen.toNat then initSegment cfg i.val else Config.staleSegment occasion i.val

/-- `Construct()` (42_game_state.md rules R151, R152). -/
def construct (s : State) : State :=
  { s with
    seg := initSeg s.cfg s.fresh
    fresh := s.fresh + 1
    len := s.cfg.initLen
    dir := s.cfg.initDir
    pend := s.cfg.initDir
    food := s.cfg.initFood
    vis := true
    gstate := .running
    geValid := true
    fb := imageOf (initBody s.cfg) s.cfg.initFood
    fbValid := true }

/-! ### The restart: the block's one exception entry, and the return from it -/

/-- Entering the restart: Running to Restarting (42_game_state.md rule R170, 60_exceptions.md rule R205). -/
def enterRestart (s : State) : State := { s with gstate := .restarting }

/-- Leaving the restart: Restarting to Running (60_exceptions.md rules R205, R207). -/
def leaveRestart (s : State) : State := { s with gstate := .running }

/-- A fatal condition: the game is constructed anew and flushed, and the tick returns the cause's code. Nothing is
saved, no control frame is sent and no draw is taken (60_exceptions.md rule R205). -/
def restart (cause : Cause) (s : State) : Outcome State Fault Refusal :=
  andThen (flush (construct (enterRestart s))) fun t => finish (causeCode cause) (leaveRestart t)

/-! ### Food placement -/

/-- How a placement ends. -/
inductive Placement where
  | accepted (p : Pos)
  | exhausted
  | ranOut
deriving DecidableEq, Repr

/-- `Place(excluded)` with the attempts left: the first draw outside the excluded cells is taken; no attempt left is
exhaustion; no draw left for an attempt is the stuck case (42_game_state.md rules R162, R163). -/
def place (excluded : List Pos) : Nat → List Pos → Placement
  | 0, _ => .exhausted
  | _ + 1, [] => .ranOut
  | n + 1, p :: rest => if excluded.contains p then place excluded n rest else .accepted p

/-- The attempt bound (00_scope.md rule R8). -/
def maxAttempts : Nat := 512

/-! ### Names -/

/-- The refusal of a word the decoder rejects. -/
def refusalOf : Reject → Refusal
  | .reservedOp => .reservedOp
  | .reservedBits => .reservedBits
  | .reservedSelector => .reservedSelector
  | .unusedFrameAddress => .unusedFrameAddress

end Sys2Proof.Machine
end

