-- ==== Sys2Proof/Machine/DisplayFrames.lean ====
section
/-! DEFINITION. The thirteen display frames as instructions of the matrix driver: each is one EmitFrame at its
register's address (30_encoding.md rules R90, R91; 40_matrix_driver.md rule R111). A frame is no command: it returns
no result word and takes no draw. -/

namespace Sys2Proof.Machine

open Host (Outcome)

/-- frame.row0: one write of row 0's pixel data (30_encoding.md rule R91). -/
def execFrameRow0 (data : Byte) (s : State) : Outcome State Fault Refusal := .next (emitFrame 0x01 data s)

/-- frame.row1: one write of row 1's pixel data (30_encoding.md rule R91). -/
def execFrameRow1 (data : Byte) (s : State) : Outcome State Fault Refusal := .next (emitFrame 0x02 data s)

/-- frame.row2: one write of row 2's pixel data (30_encoding.md rule R91). -/
def execFrameRow2 (data : Byte) (s : State) : Outcome State Fault Refusal := .next (emitFrame 0x03 data s)

/-- frame.row3: one write of row 3's pixel data (30_encoding.md rule R91). -/
def execFrameRow3 (data : Byte) (s : State) : Outcome State Fault Refusal := .next (emitFrame 0x04 data s)

/-- frame.row4: one write of row 4's pixel data (30_encoding.md rule R91). -/
def execFrameRow4 (data : Byte) (s : State) : Outcome State Fault Refusal := .next (emitFrame 0x05 data s)

/-- frame.row5: one write of row 5's pixel data (30_encoding.md rule R91). -/
def execFrameRow5 (data : Byte) (s : State) : Outcome State Fault Refusal := .next (emitFrame 0x06 data s)

/-- frame.row6: one write of row 6's pixel data (30_encoding.md rule R91). -/
def execFrameRow6 (data : Byte) (s : State) : Outcome State Fault Refusal := .next (emitFrame 0x07 data s)

/-- frame.row7: one write of row 7's pixel data (30_encoding.md rule R91). -/
def execFrameRow7 (data : Byte) (s : State) : Outcome State Fault Refusal := .next (emitFrame 0x08 data s)

/-- frame.decode: one write of the decode-mode register (30_encoding.md rule R91). -/
def execFrameDecode (data : Byte) (s : State) : Outcome State Fault Refusal := .next (emitFrame 0x09 data s)

/-- frame.intensity: one write of the intensity register (30_encoding.md rule R91). -/
def execFrameIntensity (data : Byte) (s : State) : Outcome State Fault Refusal := .next (emitFrame 0x0A data s)

/-- frame.scanlimit: one write of the scan-limit register (30_encoding.md rule R91). -/
def execFrameScanlimit (data : Byte) (s : State) : Outcome State Fault Refusal := .next (emitFrame 0x0B data s)

/-- frame.shutdown: one write of the shutdown register (30_encoding.md rule R91). -/
def execFrameShutdown (data : Byte) (s : State) : Outcome State Fault Refusal := .next (emitFrame 0x0C data s)

/-- frame.disptest: one write of the display-test register (30_encoding.md rule R91). -/
def execFrameDisptest (data : Byte) (s : State) : Outcome State Fault Refusal := .next (emitFrame 0x0F data s)

end Sys2Proof.Machine
end

