-- ==== Sys2Proof/Machine/GameEngine.lean ====
section
/-! DEFINITION. The game engine's commands: construction, the tick, the blink and the query (42_game_state.md). -/

namespace Sys2Proof.Machine

open Host (Outcome)

/-- GE.RESET (42_game_state.md rule R150). -/
def execGeReset (s : State) : Outcome State Fault Refusal := flushAndFinish 0 (construct s)

/-- The commit of a tick that grows: the head prepended and the tail kept, the new head lit, the new food's pixel set
to the blink phase (42_game_state.md rules R153, R158, R161). -/
def commitGrow (c food : Pos) (s : State) : State :=
  setPixelAt food s.vis
    (setPixelAt c true
      { s with
        seg := pushHead c (s.len.toNat + 1) s.seg
        len := s.len + 1
        dir := s.pend
        food := food })

/-- The commit of a tick that moves: the tail's pixel cleared, the head prepended, the old tail dropped, the new head
lit (42_game_state.md rules R153, R160, R161). -/
def commitMove (c : Pos) (s : State) : State :=
  setPixelAt c true
    { setPixelAt (tailOf s) false s with
      seg := pushHead c s.len.toNat s.seg
      dir := s.pend }

/-- The growth path: the placement excludes the body after growth (42_game_state.md rule R157). -/
def tickGrow (c : Pos) (s : State) : Outcome State Fault Refusal :=
  match place (c :: body s) maxAttempts s.draws with
  | .accepted p => flushAndFinish codeGrew (commitGrow c p s)
  | .exhausted => restart .foodPlacementExhausted s
  | .ranOut => .fault .drawsRanOut

/-- The path of a candidate that is not the food: a segment, the tail included, is a collision (42_game_state.md
rule R159). -/
def tickMove (c : Pos) (s : State) : Outcome State Fault Refusal :=
  if (body s).contains c then restart .selfCollision s else flushAndFinish codeMoved (commitMove c s)

/-- GE.TICK (42_game_state.md rule R153): bounds, then food, then collision (rule R165). -/
def execGeTick (s : State) : Outcome State Fault Refusal :=
  if s.geValid then
    match neighbour s.pend (headOf s) with
    | none => restart .outOfBounds s
    | some c => if c = s.food then tickGrow c s else tickMove c s
  else .fault .gameUnwritten

/-- The blink's writes: the phase always toggles, the food's pixel unless the head is on it (42_game_state.md rule
R168). -/
def toggleFood (s : State) : State :=
  let t := { s with vis := !s.vis }
  if headOf s ≠ s.food then setPixelAt s.food t.vis t else t

/-- GE.BLINK (42_game_state.md rule R168). -/
def execGeBlink (s : State) : Outcome State Fault Refusal :=
  if s.geValid then flushAndFinish 0 (toggleFood s) else .fault .gameUnwritten

/-- The 8-bit value of a query, and whether it needs the framebuffer written rather than the game (30_encoding.md
rule R88, 42_game_state.md rule R169). -/
def queryValue (s : State) : Selector → Byte
  | .len => s.len.setWidth 8
  | .dir => (dirCode s.dir).setWidth 8
  | .pend => (dirCode s.pend).setWidth 8
  | .head => pack (headOf s)
  | .food => pack s.food
  | .vis => (BitVec.ofBool s.vis).setWidth 8
  | .gstate => 0
  | .seg i => if i.toNat < s.len.toNat then pack (segAt s i) else 0xFF
  | .fbRow r => s.fb[r.toNat]

/-- GE.QUERY (42_game_state.md rule R169): a row needs `fbValid`, everything else `geValid`. -/
def execGeQuery (sel : Byte) (s : State) : Outcome State Fault Refusal :=
  match selectorOf sel with
  | none => .refused .reservedSelector
  | some (.fbRow r) =>
    if s.fbValid then finish ((queryValue s (.fbRow r)).setWidth 32) s else .fault .framebufferUnwritten
  | some q => if s.geValid then finish ((queryValue s q).setWidth 32) s else .fault .gameUnwritten

end Sys2Proof.Machine
end

