-- ==== Sys2Proof/Machine/InputSampler.lean ====
section
/-! DEFINITION. The input derivation command (41_input_sampler.md rule R141). -/

namespace Sys2Proof.Machine

open Host (Outcome)

/-- GE.STEER (41_input_sampler.md rule R141): writes `pend` alone, and only when the consulted sample is outside the
dead zone. -/
def execGeSteer (h v : BitVec 12) (s : State) : Outcome State Fault Refusal :=
  if s.geValid then finish 0 { s with pend := (steerDir s.cfg s.dir h v).getD s.pend }
  else .fault .gameUnwritten

end Sys2Proof.Machine
end

