-- ==== Sys2Proof/Machine/MatrixDriver.lean ====
section
/-! DEFINITION. The matrix driver's commands (40_matrix_driver.md rules R115 to R120). -/

namespace Sys2Proof.Machine

open Host (Outcome)

/-- The five control frames of MD.INIT in their fixed order: display-test off, scan-limit 8 digits, decode-mode none,
the configured intensity, shutdown off (40_matrix_driver.md rule R115, 70_reset_and_hazards.md rule R243). The
addresses and values are log entry 8's. -/
def controlFrames (cfg : Config) : List Frame :=
  [⟨0x0F, 0x00⟩, ⟨0x0B, 0x07⟩, ⟨0x09, 0x00⟩, ⟨0x0A, cfg.intensity.setWidth 8 &&& 0x0F⟩, ⟨0x0C, 0x01⟩]

/-- The control frames sent, in that order. -/
def emitControlFrames (s : State) : State := emitFrames (controlFrames s.cfg) s

/-- MD.INIT (40_matrix_driver.md rule R115). -/
def execMdInit (s : State) : Outcome State Fault Refusal :=
  flushAndFinish 0 { emitControlFrames s with fb := fbClear, fbValid := true }

/-- MD.SETPIX (40_matrix_driver.md rule R116): valid while `fbValid` is 0, which stays 0. -/
def execMdSetpix (row col : BitVec 3) (on : Bool) (s : State) : Outcome State Fault Refusal :=
  finish 0 (setPixel row col on s)

/-- MD.GETPIX (40_matrix_driver.md rule R117). -/
def execMdGetpix (row col : BitVec 3) (s : State) : Outcome State Fault Refusal :=
  if s.fbValid then finish ((BitVec.ofBool (fbPixel s.fb row col)).setWidth 32) s
  else .fault .framebufferUnwritten

/-- MD.SETINT (40_matrix_driver.md rule R118): the low 4 bits, not saturated (90_conflicts.md C3). -/
def execMdSetint (level : Byte) (s : State) : Outcome State Fault Refusal :=
  finish 0 (emitFrame 0x0A (level &&& 0x0F) s)

/-- MD.SHDN (40_matrix_driver.md rule R119): the wire value is the inverse of `sd` (90_conflicts.md C2). -/
def execMdShdn (sd : Bool) (s : State) : Outcome State Fault Refusal :=
  finish 0 (emitFrame 0x0C (if sd then 0x00 else 0x01) s)

/-- MD.FLUSH (40_matrix_driver.md rule R120). -/
def execMdFlush (s : State) : Outcome State Fault Refusal := flushAndFinish 0 s

end Sys2Proof.Machine
end

