-- ==== Sys2Proof/Machine/Dispatch.lean ====
section
/-! DEFINITION. What an instruction does: one arm for each constructor, one direct call of its meaning. -/

namespace Sys2Proof.Machine

/-- The meaning of an instruction in a state. -/
def exec (i : Instr) (s : State) : Host.Outcome State Fault Refusal :=
  match i with
  | .mdInit => Sys2Proof.Machine.execMdInit s
  | .mdSetpix row col on => Sys2Proof.Machine.execMdSetpix row col on s
  | .mdGetpix row col => Sys2Proof.Machine.execMdGetpix row col s
  | .mdSetint level => Sys2Proof.Machine.execMdSetint level s
  | .mdShdn sd => Sys2Proof.Machine.execMdShdn sd s
  | .mdFlush => Sys2Proof.Machine.execMdFlush s
  | .geReset => Sys2Proof.Machine.execGeReset s
  | .geSteer h v => Sys2Proof.Machine.execGeSteer h v s
  | .geTick => Sys2Proof.Machine.execGeTick s
  | .geBlink => Sys2Proof.Machine.execGeBlink s
  | .geQuery sel => Sys2Proof.Machine.execGeQuery sel s
  | .frameRow0 data => Sys2Proof.Machine.execFrameRow0 data s
  | .frameRow1 data => Sys2Proof.Machine.execFrameRow1 data s
  | .frameRow2 data => Sys2Proof.Machine.execFrameRow2 data s
  | .frameRow3 data => Sys2Proof.Machine.execFrameRow3 data s
  | .frameRow4 data => Sys2Proof.Machine.execFrameRow4 data s
  | .frameRow5 data => Sys2Proof.Machine.execFrameRow5 data s
  | .frameRow6 data => Sys2Proof.Machine.execFrameRow6 data s
  | .frameRow7 data => Sys2Proof.Machine.execFrameRow7 data s
  | .frameDecode data => Sys2Proof.Machine.execFrameDecode data s
  | .frameIntensity data => Sys2Proof.Machine.execFrameIntensity data s
  | .frameScanlimit data => Sys2Proof.Machine.execFrameScanlimit data s
  | .frameShutdown data => Sys2Proof.Machine.execFrameShutdown data s
  | .frameDisptest data => Sys2Proof.Machine.execFrameDisptest data s

end Sys2Proof.Machine
end

