-- ==== Sys2Proof/Machine/Fetch.lean ====
section
/-! DEFINITION. Where the next instruction comes from. The block has no program counter and fetches nothing from a
memory (10_state.md rule R40, 20_memory.md rule R73): it takes the next command at the host port. -/

namespace Sys2Proof.Machine

/-- The word a step runs, and the state with it taken: a frame put at the frame primitive (log entry 7), else the oldest
command at the port with its draws, else nothing (70_reset_and_hazards.md rule R241: it waits). -/
def fetch (s : State) : Option (InWord × State) :=
  match s.pendingFrame with
  | some w => some (.frame w, { s with pendingFrame := none })
  | none =>
    match s.port with
    | [] => none
    | c :: rest => some (.command c.word, { s with port := rest, draws := c.draws })

/-- A word put where the next step takes it; a command goes to the front of the port, with the draws `s` holds. -/
def placeWord (s : State) : InWord → State
  | .frame w => { s with pendingFrame := some w }
  | .command c => { s with pendingFrame := none, port := ⟨c, s.draws⟩ :: s.port }

end Sys2Proof.Machine
end

