-- ==== Sys2Proof/Machine/Step.lean ====
section
/-! DEFINITION. One step: one whole command, or one frame (00_scope.md rule R6). -/

namespace Sys2Proof.Machine

/-- A word decoded and run, or refused by the decoder's name for it (30_encoding.md rules R82, R84, R89). -/
def runWord (w : InWord) (s : State) : Host.Outcome State Fault Refusal :=
  match decode w with
  | .ok i => exec i s
  | .error r => .refused (refusalOf r)

/-- One step. An invalid configuration is refused before anything else (00_scope.md rule R10); with nothing at the
port the block waits (70_reset_and_hazards.md rule R241). -/
def step (s : State) : Host.Outcome State Fault Refusal :=
  if configValid s.cfg then
    match fetch s with
    | none => .next s
    | some (w, t) => runWord w t
  else .refused .invalidConfig

/-- `s` with a word of the opcode table's `nbits` bits where `step` takes its next instruction. -/
def State.withFetchWord (s : State) (nbits w : Nat) : State := placeWord s (tableWord nbits w)

end Sys2Proof.Machine
end

