-- ==== Sys2Proof/Machine/Assembler.lean ====
section
/-! DEFINITION. The assembler syntax of 30_encoding.md rule R94: one command a line, the mnemonic in lower case, operands
separated by commas, numbers in decimal or `0x` hexadecimal. It turns text into instructions; no step calls it. -/

namespace Sys2Proof.Machine

/-- The digit a character is in a base of at most 16. -/
def digitOf (base : Nat) (c : Char) : Option Nat :=
  let value :=
    if 48 ≤ c.toNat ∧ c.toNat ≤ 57 then c.toNat - 48
    else if 97 ≤ c.toNat ∧ c.toNat ≤ 102 then c.toNat - 87
    else if 65 ≤ c.toNat ∧ c.toNat ≤ 70 then c.toNat - 55
    else base
  if value < base then some value else none

/-- The number its digits spell, most significant first, none when a character is no digit. -/
def digitsOf (base : Nat) (acc : Nat) : List Char → Option Nat
  | [] => some acc
  | c :: cs =>
    match digitOf base c with
    | some d => digitsOf base (acc * base + d) cs
    | none => none

/-- A number of the syntax. -/
def numberOf : List Char → Option Nat
  | [] => none
  | '0' :: 'x' :: c :: cs => digitsOf 16 0 (c :: cs)
  | c :: cs => digitsOf 10 0 (c :: cs)

/-- Text without the spaces around it. -/
def trimmed (l : List Char) : List Char :=
  ((l.dropWhile (· == ' ')).reverse.dropWhile (· == ' ')).reverse

/-- Text cut at its commas. -/
def commaPieces : List Char → List (List Char)
  | [] => [[]]
  | c :: cs =>
    match commaPieces cs with
    | [] => [[]]
    | p :: ps => if c = ',' then [] :: p :: ps else (c :: p) :: ps

/-- Every piece as a number, none when one is none. -/
def numbersOf : List (List Char) → Option (List Nat)
  | [] => some []
  | p :: ps =>
    match numberOf (trimmed p), numbersOf ps with
    | some n, some ns => some (n :: ns)
    | _, _ => none

/-- The operands after a mnemonic. -/
def operandsOf (l : List Char) : Option (List Nat) :=
  match trimmed l with
  | [] => some []
  | c :: cs => numbersOf (commaPieces (c :: cs))

/-- A number in a field of `w` bits; one that does not fit is an assembly error (30_encoding.md rules R85, R94). -/
def fieldOf (w n : Nat) : Option (BitVec w) := if n < 2 ^ w then some (BitVec.ofNat w n) else none

/-- The command of a mnemonic and its operands (30_encoding.md rule R94). -/
def commandOf (name : String) (ops : List Nat) : Option Instr :=
  match name, ops with
  | "md.init", [] => some .mdInit
  | "md.setpix", [row, col, on] =>
    match fieldOf 3 row, fieldOf 3 col, fieldOf 1 on with
    | some r, some c, some b => some (.mdSetpix r c (b.getLsbD 0))
    | _, _, _ => none
  | "md.getpix", [row, col] =>
    match fieldOf 3 row, fieldOf 3 col with
    | some r, some c => some (.mdGetpix r c)
    | _, _ => none
  | "md.setint", [level] => (fieldOf 8 level).map .mdSetint
  | "md.shdn", [sd] => (fieldOf 1 sd).map fun b => .mdShdn (b.getLsbD 0)
  | "md.flush", [] => some .mdFlush
  | "ge.reset", [] => some .geReset
  | "ge.steer", [h, v] =>
    match fieldOf 12 h, fieldOf 12 v with
    | some a, some b => some (.geSteer a b)
    | _, _ => none
  | "ge.tick", [] => some .geTick
  | "ge.blink", [] => some .geBlink
  | "ge.query", [sel] => (fieldOf 8 sel).map .geQuery
  | _, _ => none

/-- A line of assembly, none for an assembly error (30_encoding.md rules R94, R95). -/
def assemble (line : String) : Option Instr :=
  let text := trimmed line.toList
  match operandsOf (text.dropWhile (· != ' ')) with
  | some ops => commandOf (String.ofList (text.takeWhile (· != ' '))) ops
  | none => none

end Sys2Proof.Machine
end

