-- ==== Sys2Proof/Machine/Display.lean ====
section
/-! DEFINITION. The far end of the wire, as 93_implementation_defined.md G3 describes it: the device samples DIN on a
rising CLK edge while it is selected and latches sixteen bits on the rising CS edge. It is no state of the block
(20_memory.md rule R63: nothing is read back); claims use it to say that the waveform carries the frames. Log entry 8. -/

namespace Sys2Proof.Machine

/-- A receiver: the line levels it last saw, its shift register, and the words it has latched, oldest first. -/
structure Receiver where
  lines : Lines
  shift : FrameWord
  latched : List FrameWord
deriving DecidableEq, Repr

/-- The receiver on idle lines, nothing received. -/
def Receiver.idle : Receiver := ⟨⟨true, false, false⟩, 0, []⟩

/-- The shift register after one more bit. -/
def shiftIn (w : FrameWord) (b : Bool) : FrameWord := (w <<< 1) ||| (BitVec.ofBool b).setWidth 16

/-- One event at the receiver. -/
def receive (r : Receiver) (e : LineEvent) : Receiver :=
  let seen := { r with lines := applyEvent r.lines e }
  match e with
  | .din _ => seen
  | .clk b => if b && !r.lines.clk && !r.lines.cs then { seen with shift := shiftIn r.shift r.lines.din } else seen
  | .cs b => if b && !r.lines.cs then { seen with latched := r.latched ++ [r.shift] } else seen

/-- A whole waveform at the receiver. -/
def receiveAll (r : Receiver) (es : List LineEvent) : Receiver := es.foldl receive r

end Sys2Proof.Machine
end

