-- ==== Sys2Proof/Machine/HostLoop.lean ====
section
/-! DEFINITION. The host's side of the interface, as far as the spec describes it: the scheduler's due test, the order
of one loop iteration, the boot order (60_exceptions.md rules R214 to R217, 70_reset_and_hazards.md rule R242). The
host is no part of the block: nothing here stands in State, and `step` calls none of it (00_scope.md rule R4 (b)). -/

namespace Sys2Proof.Machine

/-- The default of `TIME_BITS` (00_scope.md rule R12). -/
abbrev timeBitsDefault : Nat := 32

/-- A periodic task of the host, with a time of `bits` bits (`TIME_BITS`, 00_scope.md rule R12). -/
structure Task (bits : Nat := timeBitsDefault) where
  lastFired : BitVec bits
  interval : Nat
deriving DecidableEq, Repr

/-- `now - lastFired >= interval`, the subtraction modulo 2^bits (60_exceptions.md rule R216). -/
def taskDue {bits : Nat} (now : BitVec bits) (t : Task bits) : Bool :=
  decide (t.interval ≤ (now - t.lastFired).toNat)

/-- A check of a task: when it is due, `lastFired` becomes `now`, not the ideal boundary (60_exceptions.md rule R216). -/
def taskCheck {bits : Nat} (now : BitVec bits) (t : Task bits) : Task bits :=
  if taskDue now t then { t with lastFired := now } else t

/-- The host's scheduler: the frame task and the blink task (60_exceptions.md rule R216). -/
structure Scheduler (bits : Nat := timeBitsDefault) where
  frame : Task bits
  blink : Task bits
deriving DecidableEq, Repr

/-- The scheduler of a configuration, from the times its tasks last fired; the source gives no initial ones. -/
def schedulerOf {bits : Nat} (cfg : Config) (lastFrame lastBlink : BitVec bits) : Scheduler bits :=
  ⟨⟨lastFrame, cfg.frameInterval⟩, ⟨lastBlink, cfg.blinkInterval⟩⟩

/-- The commands of one loop iteration: the samples, then the frame task if due, then the blink task if due, always in
that order (60_exceptions.md rules R215, R217). -/
def loopCommands {bits : Nat} (h v : BitVec 12) (nowFrame nowBlink : BitVec bits) (draws : List Pos)
    (sched : Scheduler bits) : List HostCommand :=
  [⟨wordS 0x9 h v, []⟩] ++
    (if taskDue nowFrame sched.frame then [⟨wordN 0xA, draws⟩] else []) ++
    (if taskDue nowBlink sched.blink then [⟨wordN 0xB, []⟩] else [])

/-- The scheduler after one loop iteration (60_exceptions.md rule R216). -/
def loopScheduler {bits : Nat} (nowFrame nowBlink : BitVec bits) (sched : Scheduler bits) : Scheduler bits :=
  ⟨taskCheck nowFrame sched.frame, taskCheck nowBlink sched.blink⟩

/-- The boot order the host must follow: MD.INIT, then GE.RESET (70_reset_and_hazards.md rule R242). -/
def bootCommands : List HostCommand := [⟨wordN 0x1, []⟩, ⟨wordN 0x8, []⟩]

/-- The host's duty on samples: raw values in [0, ADC_MAX] (60_exceptions.md rule R214). -/
def samplesInRange (h v : BitVec 12) : Bool := decide (h ≤ Config.adcMax ∧ v ≤ Config.adcMax)

end Sys2Proof.Machine
end

