-- ==== Sys2Proof/Safety.lean ====
section
/-! DEFINITION. The terms claims are stated in: what a well-kept state is, what the image of a game is, which frames
the block sends, and which parts of two states agree. -/

namespace Sys2Proof.Machine

/-! ### Invariants -/

/-- The game registers hold a game: a length in [1,63] (10_state.md rule R28), distinct segments (rule R36), the food off
the snake (rule R37), a pending direction equal or perpendicular to the committed one (41_input_sampler.md rule R142),
and the Running state (10_state.md rule R33). -/
structure GameInv (s : State) : Prop where
  len_pos : 1 ≤ s.len.toNat
  len_le : s.len.toNat ≤ 63
  distinct : (body s).Nodup
  food_off : s.food ∉ body s
  pend_ok : s.pend = s.dir ∨ perpendicular s.pend s.dir = true
  running : s.gstate = .running

/-- The state between commands: a constructed engine holds a game and a written framebuffer; the lines rest with CS high
and CLK low (10_state.md rule R25); no draw is left over (42_game_state.md rule R162); no frame is half way. -/
structure Inv (s : State) : Prop where
  game : s.geValid = true → GameInv s
  fb_written : s.geValid = true → s.fbValid = true
  cs_high : s.lines.cs = true
  clk_low : s.lines.clk = false
  no_draws : s.draws = []
  no_frame : s.pendingFrame = none

/-- Frame-image consistency (10_state.md rule R39): a pixel is lit exactly at a segment, and at the food while it is
shown. -/
def ImageOk (s : State) : Prop :=
  ∀ p : Pos, fbPixelAt s.fb p = true ↔ p ∈ body s ∨ (p = s.food ∧ s.vis = true)

/-- The lines are where the whole waveform since reset left them: only EmitFrame changes a line (10_state.md rule R25). -/
def LinesFollowTrace (s : State) : Prop := s.lines = runEvents State.reset.lines (lineTrace s)

/-! ### Frames -/

/-- A frame of 30_encoding.md rules R91 to R93: a row with any data, or a control register with a value of rule R92. -/
def sentByBlock (f : Frame) : Bool :=
  decide (1 ≤ f.addr.toNat ∧ f.addr.toNat ≤ 8) ||
  (f.addr == 0x09 && f.data == 0x00) ||
  (f.addr == 0x0A && decide (f.data.toNat ≤ 15)) ||
  (f.addr == 0x0B && f.data == 0x07) ||
  (f.addr == 0x0C && (f.data == 0x00 || f.data == 0x01)) ||
  (f.addr == 0x0F && f.data == 0x00)

/-- The eight frames of a framebuffer: row `r` to device address `r + 1` (10_state.md rule R21). -/
def rowFrames (fb : Framebuffer) : List Frame :=
  [⟨1, fb[0]⟩, ⟨2, fb[1]⟩, ⟨3, fb[2]⟩, ⟨4, fb[3]⟩, ⟨5, fb[4]⟩, ⟨6, fb[5]⟩, ⟨7, fb[6]⟩, ⟨8, fb[7]⟩]

/-! ### Moves -/

/-- `q` is the candidate: one unit step from `p` in direction `d`, in integers (42_game_state.md rule R154). -/
def StepsTo (d : Dir) (p q : Pos) : Prop :=
  (q.x.toNat : Int) = p.x.toNat + dx d ∧ (q.y.toNat : Int) = p.y.toNat + dy d

/-- The candidate is outside the grid: a coordinate is -1 or 8 (42_game_state.md rule R155). -/
def StepsOff (d : Dir) (p : Pos) : Prop :=
  (p.x.toNat : Int) + dx d = -1 ∨ (p.x.toNat : Int) + dx d = 8 ∨
    (p.y.toNat : Int) + dy d = -1 ∨ (p.y.toNat : Int) + dy d = 8

/-! ### Agreement of two states -/

/-- The same snake, food, directions and game-level state. -/
structure SameGame (s t : State) : Prop where
  seg : t.seg = s.seg
  len : t.len = s.len
  dir : t.dir = s.dir
  pend : t.pend = s.pend
  food : t.food = s.food
  vis : t.vis = s.vis
  gstate : t.gstate = s.gstate
  geValid : t.geValid = s.geValid
  fresh : t.fresh = s.fresh

/-- The same framebuffer. -/
structure SameFb (s t : State) : Prop where
  fb : t.fb = s.fb
  fbValid : t.fbValid = s.fbValid

/-- The same lines and the same frames sent. -/
structure SameWire (s t : State) : Prop where
  lines : t.lines = s.lines
  frames : t.frames = s.frames

/-- The same configuration and the same input waiting. -/
structure SameInput (s t : State) : Prop where
  cfg : t.cfg = s.cfg
  port : t.port = s.port
  pendingFrame : t.pendingFrame = s.pendingFrame

/-- A command has ended with the result word `res`, its unused draws discarded. -/
structure Returned (res : Word) (s t : State) : Prop where
  results : t.results = s.results ++ [res]
  draws : t.draws = []

/-- The frames `fs` were sent, in that order, and the lines went through their waveform. -/
structure Sent (fs : List Frame) (s t : State) : Prop where
  frames : t.frames = s.frames ++ fs
  lines : t.lines = runEvents s.lines (fs.flatMap writeEvents)

/-- The same game but for the blink phase, which no decision reads (10_state.md rule R32), with the same configuration,
draws and written marks; the pixels, the lines and what was sent and returned may differ. -/
structure SameLogic (s t : State) : Prop where
  seg : t.seg = s.seg
  len : t.len = s.len
  dir : t.dir = s.dir
  pend : t.pend = s.pend
  food : t.food = s.food
  gstate : t.gstate = s.gstate
  geValid : t.geValid = s.geValid
  fbValid : t.fbValid = s.fbValid
  fresh : t.fresh = s.fresh
  cfg : t.cfg = s.cfg
  draws : t.draws = s.draws

/-- The game of a configuration as a construction leaves it (42_game_state.md rules R151, R152): every live register,
the image, and both written marks. The slots from `initLen` on are not constrained. -/
structure InitialGame (t : State) : Prop where
  body : body t = initBody t.cfg
  len : t.len = t.cfg.initLen
  dir : t.dir = t.cfg.initDir
  pend : t.pend = t.cfg.initDir
  food : t.food = t.cfg.initFood
  vis : t.vis = true
  gstate : t.gstate = .running
  geValid : t.geValid = true
  fbValid : t.fbValid = true
  image : ∀ p : Pos, fbPixelAt t.fb p = true ↔ p ∈ initBody t.cfg ∨ p = t.cfg.initFood

end Sys2Proof.Machine
end

