-- ==== Sys2Proof/Certificates/Slice0/Obligations.lean ====
section
/-! DEFINITION. The statements for the provers. Each says which rule of spec/ it formalises; where a clause rests on a
choice of the model, it names the log entry. -/

open Sys2Proof Sys2Proof.Machine

/-! ### Encodings and the step -/

/-- Every well-formed instruction is read back from its own word, whatever its operands (30_encoding.md R80, R81, R83,
R90, R91). -/
def Obligations.DecodeOfEncode : Prop :=
  ∀ i : Instr, i.wellFormed = true → decode (encode i) = .ok i

/-- A word that decodes is the word of its instruction, and that instruction is well-formed: no two words mean the same
(30_encoding.md R80, R81, R89). -/
def Obligations.EncodeOfDecode : Prop :=
  ∀ (w : InWord) (i : Instr), decode w = .ok i → encode i = w ∧ i.wellFormed = true

/-- 30_encoding.md R84: exactly the five reserved operation codes spell no command, and a step refuses them. -/
def Obligations.ReservedOperationCodeRefused : Prop :=
  ∀ (s : State) (c : HostCommand) (rest : List HostCommand),
    configValid s.cfg = true → s.pendingFrame = none → s.port = c :: rest →
    (decode (.command c.word) = .error .reservedOp ↔
      c.word.extractLsb' 28 4 ∈ ([0x0, 0x7, 0xD, 0xE, 0xF] : List (BitVec 4))) ∧
    (c.word.extractLsb' 28 4 ∈ ([0x0, 0x7, 0xD, 0xE, 0xF] : List (BitVec 4)) → step s = .refused .reservedOp)

/-- A 1 in a should-be-zero bit of the format spells no command, and a step refuses it (30_encoding.md R82). The masks are
the SBZ columns of rule R81, by operation code. That a GE.QUERY word with both such a bit and a reserved selector is refused
for its reserved bits, though R89 names the other refusal too, is the model's choice, log entry 11, read from the order of
R80. -/
def Obligations.NonzeroReservedBitRefused : Prop :=
  ∀ (s : State) (c : HostCommand) (rest : List HostCommand) (mask : Word),
    configValid s.cfg = true → s.pendingFrame = none → s.port = c :: rest →
    (c.word.extractLsb' 28 4, mask) ∈ ([(0x1, 0x0FFFFFFF), (0x2, 0x0FFFF88E), (0x3, 0x0FFFF88F), (0x4, 0x0FFFFF00),
      (0x5, 0x0FFFFFFE), (0x6, 0x0FFFFFFF), (0x8, 0x0FFFFFFF), (0x9, 0x0F000000), (0xA, 0x0FFFFFFF),
      (0xB, 0x0FFFFFFF), (0xC, 0x0FFFFF00)] : List (BitVec 4 × Word)) →
    (decode (.command c.word) = .error .reservedBits ↔ c.word &&& mask ≠ 0) ∧
    (c.word &&& mask ≠ 0 → step s = .refused .reservedBits)

/-- 30_encoding.md R89: exactly the selectors 0x07 to 0x3F and 0x88 to 0xFF are reserved; the decoder, the command itself
and a step with such a word at the port refuse them. -/
def Obligations.ReservedSelectorRefused : Prop :=
  (∀ (s : State) (sel : Byte),
    (decode (.command (0xC#4 ++ 0#20 ++ sel)) = .error .reservedSelector ↔
      (0x07 ≤ sel.toNat ∧ sel.toNat ≤ 0x3F) ∨ 0x88 ≤ sel.toNat) ∧
    (exec (.geQuery sel) s = .refused .reservedSelector ↔
      (0x07 ≤ sel.toNat ∧ sel.toNat ≤ 0x3F) ∨ 0x88 ≤ sel.toNat)) ∧
  (∀ (s : State) (c : HostCommand) (rest : List HostCommand) (sel : Byte),
    configValid s.cfg = true → s.pendingFrame = none → s.port = c :: rest →
    c.word = 0xC#4 ++ 0#20 ++ sel → (0x07 ≤ sel.toNat ∧ sel.toNat ≤ 0x3F) ∨ 0x88 ≤ sel.toNat →
    step s = .refused .reservedSelector)

/-- The decoder rejects a 16-bit word as a frame exactly when its address is one the block never sends (30_encoding.md
R93), and a step with such a word at the frame primitive is refused. That a frame can stand there at all, and the name of
the refusal, are the model's choice, log entry 7. -/
def Obligations.UnusedFrameAddressRejected : Prop :=
  (∀ addr data : Byte,
    decode (.frame (addr ++ data)) = .error .unusedFrameAddress ↔
      addr = 0x00 ∨ addr = 0x0D ∨ addr = 0x0E ∨ 0x10 ≤ addr.toNat) ∧
  (∀ (s : State) (addr data : Byte),
    configValid s.cfg = true → s.pendingFrame = some (addr ++ data) →
    addr = 0x00 ∨ addr = 0x0D ∨ addr = 0x0E ∨ 0x10 ≤ addr.toNat →
    step s = .refused .unusedFrameAddress)

/-- The words of 30_encoding.md R96 and R97 decode to the commands and frames they are given for. -/
def Obligations.SpecWordsDecode : Prop :=
  decode (.command 0x10000000) = .ok .mdInit ∧
  decode (.command 0x20000251) = .ok (.mdSetpix 2 5 true) ∧
  decode (.command 0x30000250) = .ok (.mdGetpix 2 5) ∧
  decode (.command 0x40000014) = .ok (.mdSetint 20) ∧
  decode (.command 0x50000001) = .ok (.mdShdn true) ∧
  decode (.command 0x60000000) = .ok .mdFlush ∧
  decode (.command 0x80000000) = .ok .geReset ∧
  decode (.command 0x902003FF) = .ok (.geSteer 512 1023) ∧
  decode (.command 0xA0000000) = .ok .geTick ∧
  decode (.command 0xB0000000) = .ok .geBlink ∧
  decode (.command 0xC0000043) = .ok (.geQuery 0x43) ∧
  decode (.frame 0x0270) = .ok (.frameRow1 0x70) ∧
  decode (.frame 0x0A08) = .ok (.frameIntensity 0x08) ∧
  decode (.frame 0x0C01) = .ok (.frameShutdown 0x01) ∧
  decode (.frame 0x0B07) = .ok (.frameScanlimit 0x07)

/-- A step runs the decoded instruction (00_scope.md R6, 30_encoding.md R80). Where the instruction comes from and what is
taken with it are the model's choices: the oldest command of the queue `port`, which the step takes off it (log entry 4),
with its draws latched for every command, though R6 gives draws to GE.TICK only (log entry 5); or a frame put at the frame
primitive (log entry 7). -/
def Obligations.StepRunsDecodedWord : Prop :=
  (∀ (s : State) (c : HostCommand) (rest : List HostCommand) (i : Instr),
    configValid s.cfg = true → s.pendingFrame = none → s.port = c :: rest →
    decode (.command c.word) = .ok i → step s = exec i { s with port := rest, draws := c.draws }) ∧
  (∀ (s : State) (w : FrameWord) (i : Instr),
    configValid s.cfg = true → s.pendingFrame = some w →
    decode (.frame w) = .ok i → step s = exec i { s with pendingFrame := none })

/-- A step is refused for its configuration exactly when a condition of 00_scope.md R10 fails, and the conditions together
force `initLen <= 63`. The rule does not say at what point the refusal falls: that every step refuses, before anything is
fetched (with an empty port or a word that does not decode too), is the model's choice, log entry 9. -/
def Obligations.InvalidConfigurationRefused : Prop :=
  ∀ s : State,
    let cfg := s.cfg
    let n := cfg.initLen.toNat
    let valid : Prop :=
      cfg.deadLo.toNat ≤ cfg.deadHi.toNat ∧ cfg.intensity.toNat ≤ 15 ∧ 1 ≤ n ∧ n ≤ 64 ∧
      (∀ i < n, (0 ≤ (cfg.initHead.x.toNat : Int) - i * dx cfg.initDir ∧
          (cfg.initHead.x.toNat : Int) - i * dx cfg.initDir ≤ 7) ∧
        (0 ≤ (cfg.initHead.y.toNat : Int) - i * dy cfg.initDir ∧
          (cfg.initHead.y.toNat : Int) - i * dy cfg.initDir ≤ 7)) ∧
      (∀ i < n, ∀ j < n, i ≠ j → initSegment cfg i ≠ initSegment cfg j) ∧
      (∀ i < n, initSegment cfg i ≠ cfg.initFood)
    (step s = .refused .invalidConfig ↔ ¬ valid) ∧ (valid → n ≤ 63)

/-- With no command issued the block waits: a step changes nothing (70_reset_and_hazards.md R241 "it waits for the first
command"). That waiting is a step of its own is the model's choice, log entry 4. -/
def Obligations.StepWaitsWithoutCommand : Prop :=
  ∀ s : State, configValid s.cfg = true → s.pendingFrame = none → s.port = [] → step s = .next s

/-- What power-on reset sets (70_reset_and_hazards.md R240, 10_state.md R25): the lines, both written marks, no frame and
no result. The values of the other registers are log entry 2's and nothing is said of them. -/
def Obligations.ResetLeavesLinesIdleAndNothingWritten : Prop :=
  State.reset.lines = ⟨true, false, false⟩ ∧ State.reset.fbValid = false ∧ State.reset.geValid = false ∧
  State.reset.frames = [] ∧ State.reset.results = [] ∧ State.reset.port = []

/-! ### The matrix driver -/

/-- 40_matrix_driver.md R115. The addresses and values of the five control frames are the rule's, which the spec itself
takes from general knowledge (log entry 8). -/
def Obligations.MdInitClearsAndSendsThirteenFrames : Prop :=
  ∀ s : State, ∃ t : State,
    exec .mdInit s = .next t ∧ Returned 0 s t ∧
    Sent [⟨0x0F, 0x00⟩, ⟨0x0B, 0x07⟩, ⟨0x09, 0x00⟩, ⟨0x0A, BitVec.ofNat 8 s.cfg.intensity.toNat⟩, ⟨0x0C, 0x01⟩,
      ⟨1, 0⟩, ⟨2, 0⟩, ⟨3, 0⟩, ⟨4, 0⟩, ⟨5, 0⟩, ⟨6, 0⟩, ⟨7, 0⟩, ⟨8, 0⟩] s t ∧
    (∀ r c : BitVec 3, fbPixel t.fb r c = false) ∧ t.fbValid = true ∧ SameGame s t ∧ SameInput s t

/-- 40_matrix_driver.md R116: one bit is written, no frame is sent, and the command is valid while `fbValid` is 0, which
stays as it was. -/
def Obligations.MdSetpixWritesOneBit : Prop :=
  ∀ (s : State) (row col : BitVec 3) (on : Bool), ∃ t : State,
    exec (.mdSetpix row col on) s = .next t ∧ Returned 0 s t ∧
    (∀ r c : BitVec 3, t.fb[r.toNat].getLsbD (7 - c.toNat) =
      if r = row ∧ c = col then on else s.fb[r.toNat].getLsbD (7 - c.toNat)) ∧
    t.fbValid = s.fbValid ∧ SameGame s t ∧ SameWire s t ∧ SameInput s t

/-- 40_matrix_driver.md R117: the framebuffer's bit is returned and nothing changes; unwritten, it faults. -/
def Obligations.MdGetpixReturnsTheBit : Prop :=
  ∀ (s : State) (row col : BitVec 3),
    (s.fbValid = true → ∃ t : State,
      exec (.mdGetpix row col) s = .next t ∧
      Returned (if s.fb[row.toNat].getLsbD (7 - col.toNat) then 1 else 0) s t ∧
      SameFb s t ∧ SameGame s t ∧ SameWire s t ∧ SameInput s t) ∧
    (s.fbValid = false → exec (.mdGetpix row col) s = .fault .framebufferUnwritten)

/-- 40_matrix_driver.md R118: one frame to the intensity register with the level reduced to its low 4 bits (modulo 16,
not saturated); no register of the block changes. -/
def Obligations.MdSetintSendsLowFourBits : Prop :=
  ∀ (s : State) (level : Byte), ∃ t : State,
    exec (.mdSetint level) s = .next t ∧ Returned 0 s t ∧
    Sent [⟨0x0A, BitVec.ofNat 8 (level.toNat % 16)⟩] s t ∧ SameFb s t ∧ SameGame s t ∧ SameInput s t

/-- 40_matrix_driver.md R119: one frame to the shutdown register, with the inverse of `sd`. -/
def Obligations.MdShdnSendsInvertedFlag : Prop :=
  ∀ (s : State) (sd : Bool), ∃ t : State,
    exec (.mdShdn sd) s = .next t ∧ Returned 0 s t ∧
    Sent [⟨0x0C, if sd = true then 0x00 else 0x01⟩] s t ∧ SameFb s t ∧ SameGame s t ∧ SameInput s t

/-- 40_matrix_driver.md R120: the eight rows are sent in order and the framebuffer stays; unwritten, it faults. -/
def Obligations.MdFlushSendsAllRows : Prop :=
  ∀ s : State,
    (s.fbValid = true → ∃ t : State,
      exec .mdFlush s = .next t ∧ Returned 0 s t ∧ Sent (rowFrames s.fb) s t ∧
      SameFb s t ∧ SameGame s t ∧ SameInput s t) ∧
    (s.fbValid = false → exec .mdFlush s = .fault .framebufferUnwritten)

/-- A pixel set and read back (40_matrix_driver.md R122): the value set is returned, and any other pixel reads as it did
before. -/
def Obligations.SetPixelThenGetPixel : Prop :=
  ∀ (s : State) (row col : BitVec 3) (on : Bool), s.fbValid = true → ∃ t u : State,
    exec (.mdSetpix row col on) s = .next t ∧ exec (.mdGetpix row col) t = .next u ∧
    u.results = s.results ++ [0, if on = true then 1 else 0] ∧
    ∀ r c : BitVec 3, ¬ (r = row ∧ c = col) → ∃ (x : Word) (v v' : State),
      exec (.mdGetpix r c) s = .next v ∧ exec (.mdGetpix r c) t = .next v' ∧
      v.results = s.results ++ [x] ∧ v'.results = t.results ++ [x]

/-- Two flushes of an unchanged framebuffer send the same eight frames (40_matrix_driver.md R121). -/
def Obligations.FlushTwiceSendsTheSameFrames : Prop :=
  ∀ s : State, s.fbValid = true → ∃ (t u : State) (fs : List Frame),
    exec .mdFlush s = .next t ∧ exec .mdFlush t = .next u ∧
    fs.length = 8 ∧ t.frames = s.frames ++ fs ∧ u.frames = t.frames ++ fs ∧ u.fb = s.fb

/-! ### Frames and the wire -/

/-- 40_matrix_driver.md R112: the 50 line events of one register write `w = {addr, data}`, in order, and that a register
write is exactly them: it takes the lines through these events. -/
def Obligations.FrameWaveformHasFiftyEvents : Prop :=
  ∀ (s : State) (addr data : Byte),
    let w : FrameWord := addr ++ data
    let es := frameEvents w
    es.length = 50 ∧ es[0]? = some (.cs false) ∧ es[49]? = some (.cs true) ∧
    (∀ k < 16, es[1 + 3 * k]? = some (.din (w.getLsbD (15 - k))) ∧ es[2 + 3 * k]? = some (.clk true) ∧
      es[3 + 3 * k]? = some (.clk false)) ∧
    (emitFrame addr data s).lines = runEvents s.lines es ∧ lineTrace (emitFrame addr data s) = lineTrace s ++ es

/-- 40_matrix_driver.md R111, for each of the thirteen registers of 30_encoding.md R91: a frame is one register write at
its address, it cannot fail, and nothing but the lines and the frame sequence changes; the lines rest with CS high, CLK
low and DIN at the last bit. That a frame runs as an instruction of its own is the model's choice, log entry 7. -/
def Obligations.FrameWritesItsRegister : Prop :=
  ∀ (s : State) (data : Byte) (i : Instr) (addr : Byte),
    (i, addr) ∈ ([(.frameRow0 data, 0x01), (.frameRow1 data, 0x02), (.frameRow2 data, 0x03), (.frameRow3 data, 0x04),
      (.frameRow4 data, 0x05), (.frameRow5 data, 0x06), (.frameRow6 data, 0x07), (.frameRow7 data, 0x08),
      (.frameDecode data, 0x09), (.frameIntensity data, 0x0A), (.frameScanlimit data, 0x0B),
      (.frameShutdown data, 0x0C), (.frameDisptest data, 0x0F)] : List (Instr × Byte)) →
    encode i = .frame (addr ++ data) ∧ ∃ t : State,
      exec i s = .next t ∧ Sent [⟨addr, data⟩] s t ∧ t.lines = ⟨true, false, data.getLsbD 0⟩ ∧
      t.results = s.results ∧ t.draws = s.draws ∧ SameFb s t ∧ SameGame s t ∧ SameInput s t

/-- The waveform of a whole run, read by a device that samples DIN on the rising CLK edge and latches on the rising CS
edge (93_implementation_defined.md G3), is exactly the frames sent, in order (40_matrix_driver.md R112, R113). -/
def Obligations.WaveformCarriesTheFrames : Prop :=
  ∀ s : State,
    (receiveAll Receiver.idle (lineTrace s)).latched = s.frames.map (fun f => f.addr ++ f.data)

/-- Only EmitFrame changes a line (10_state.md R25): after every step the lines are where the whole waveform left them. -/
def Obligations.LinesFollowTheWaveform : Prop :=
  ∀ s s' : State, LinesFollowTrace s → step s = .next s' → LinesFollowTrace s'

/-- The bit of column 0 is the first data bit on the wire and that of column 7 the last (20_memory.md R65). -/
def Obligations.ColumnZeroIsSentFirst : Prop :=
  ∀ (fb : Framebuffer) (r c : BitVec 3),
    (frameBits (frameWord (r.setWidth 8 + 1) fb[r.toNat]))[8 + c.toNat]? = some (fbPixel fb r c)

/-- No command sends a frame outside the register map, and the decode-mode, scan-limit and display-test registers are
written by MD.INIT alone (30_encoding.md R93). -/
def Obligations.CommandsSendOnlyListedFrames : Prop :=
  ∀ (s t : State) (i : Instr) (c : Word), encode i = .command c → exec i s = .next t →
    ∃ fs : List Frame, t.frames = s.frames ++ fs ∧
      ∀ f ∈ fs, sentByBlock f = true ∧ (f.addr = 0x09 ∨ f.addr = 0x0B ∨ f.addr = 0x0F → i = .mdInit)

/-- Frames and clock pulses of each command (70_reset_and_hazards.md R252). -/
def Obligations.FramesAndPulsesPerCommand : Prop :=
  ∀ (s t : State) (i : Instr) (n : Nat), exec i s = .next t →
    ((i = .mdInit ∧ n = 13) ∨ ((∃ level, i = .mdSetint level) ∧ n = 1) ∨ ((∃ sd, i = .mdShdn sd) ∧ n = 1) ∨
      ((i = .mdFlush ∨ i = .geReset ∨ i = .geTick ∨ i = .geBlink) ∧ n = 8) ∨
      (((∃ r c on, i = .mdSetpix r c on) ∨ (∃ r c, i = .mdGetpix r c) ∨ (∃ h v, i = .geSteer h v) ∨
        (∃ sel, i = .geQuery sel)) ∧ n = 0)) →
    t.frames.length = s.frames.length + n ∧
    (lineTrace t).count (.clk true) = (lineTrace s).count (.clk true) + 16 * n

/-! ### Steering -/

/-- 41_input_sampler.md R141: only the channel perpendicular to the committed direction is consulted, a sample on a bound
changes nothing, and `pend` alone is written; before construction it faults. -/
def Obligations.GeSteerWritesPendOnly : Prop :=
  ∀ (s : State) (h v : BitVec 12),
    (s.geValid = true → ∃ t : State,
      exec (.geSteer h v) s = .next t ∧ Returned 0 s t ∧
      t.pend =
        (if s.dir = .left ∨ s.dir = .right then
          (if v.toNat < s.cfg.deadLo.toNat then .up
           else if s.cfg.deadHi.toNat < v.toNat then .down else s.pend)
         else
          (if h.toNat < s.cfg.deadLo.toNat then .left
           else if s.cfg.deadHi.toNat < h.toNat then .right else s.pend)) ∧
      SameGame { s with pend := t.pend } t ∧ SameFb s t ∧ SameWire s t ∧ SameInput s t) ∧
    (s.geValid = false → exec (.geSteer h v) s = .fault .gameUnwritten)

/-- The sample of the channel along the committed axis is ignored whatever its value (41_input_sampler.md R142, R145). -/
def Obligations.SteerIgnoresTheAxisOfMotion : Prop :=
  ∀ (s : State) (h h' v v' : BitVec 12),
    ((s.dir = .left ∨ s.dir = .right) → exec (.geSteer h v) s = exec (.geSteer h' v) s) ∧
    ((s.dir = .up ∨ s.dir = .down) → exec (.geSteer h v) s = exec (.geSteer h v') s)

/-! ### Construction and the tick -/

/-- 42_game_state.md R150, R151 and R152: with a valid configuration the game is built behind the head, opposite to the
initial direction, imaged and flushed. -/
def Obligations.GeResetConstructsTheGame : Prop :=
  ∀ s : State, configValid s.cfg = true → ∃ t : State,
    exec .geReset s = .next t ∧ Returned 0 s t ∧ InitialGame t ∧ Sent (rowFrames t.fb) s t ∧ SameInput s t ∧
    (∀ i : BitVec 6, i.toNat < s.cfg.initLen.toNat →
      ((t.seg[i.toNat].x.toNat : Int) = s.cfg.initHead.x.toNat - i.toNat * dx s.cfg.initDir) ∧
      ((t.seg[i.toNat].y.toNat : Int) = s.cfg.initHead.y.toNat - i.toNat * dy s.cfg.initDir))

/-- 42_game_state.md R154, with the bounds test of R155: the four unit steps, that the candidate is the cell whose
coordinates are the stepped ones, and that there is none exactly when a coordinate is -1 or 8. -/
def Obligations.CandidateIsOneStepOrOffTheGrid : Prop :=
  (dx .up, dy .up) = (0, -1) ∧ (dx .down, dy .down) = (0, 1) ∧ (dx .left, dy .left) = (-1, 0) ∧
  (dx .right, dy .right) = (1, 0) ∧
  ∀ (d : Dir) (p : Pos),
    (∀ q : Pos, neighbour d p = some q ↔ StepsTo d p q) ∧ (neighbour d p = none ↔ StepsOff d p)

/-- The move path of 42_game_state.md R153 (R160, R161): the tail's cell is cleared, the head prepended and lit, the old
tail dropped, and everything else kept. -/
def Obligations.TickMovesTheSnake : Prop :=
  ∀ (s : State) (c : Pos),
    s.geValid = true → s.fbValid = true → 1 ≤ s.len.toNat → s.len.toNat ≤ 64 →
    StepsTo s.pend (headOf s) c → c ≠ s.food → c ∉ body s → ∃ t : State,
    exec .geTick s = .next t ∧ Returned 0 s t ∧
    body t = c :: (body s).dropLast ∧ (∀ i : BitVec 6, s.len.toNat ≤ i.toNat → t.seg[i.toNat] = s.seg[i.toNat]) ∧
    SameGame { s with seg := t.seg, dir := s.pend } t ∧
    (∀ q : Pos, fbPixelAt t.fb q =
      if q = c then true else if q = tailOf s then false else fbPixelAt s.fb q) ∧
    t.fbValid = true ∧ Sent (rowFrames t.fb) s t ∧ SameInput s t

/-- The growth path of 42_game_state.md R153 (R156, R157, R158, R161): the first draw off the body after growth is taken
within 512 attempts, the tail stays, and the new food's pixel is the blink phase. -/
def Obligations.TickGrowsTheSnake : Prop :=
  ∀ (s : State) (p : Pos) (rejected rest : List Pos),
    s.geValid = true → s.fbValid = true → 1 ≤ s.len.toNat → s.len.toNat ≤ 63 →
    StepsTo s.pend (headOf s) s.food →
    s.draws = rejected ++ p :: rest → rejected.length < 512 →
    (∀ q ∈ rejected, q ∈ s.food :: body s) → p ∉ s.food :: body s → ∃ t : State,
    exec .geTick s = .next t ∧ Returned 1 s t ∧
    body t = s.food :: body s ∧ t.len.toNat = s.len.toNat + 1 ∧
    (∀ i : BitVec 6, s.len.toNat < i.toNat → t.seg[i.toNat] = s.seg[i.toNat]) ∧
    SameGame { s with seg := t.seg, len := t.len, dir := s.pend, food := p } t ∧
    (∀ q : Pos, fbPixelAt t.fb q =
      if q = p then s.vis else if q = s.food then true else fbPixelAt s.fb q) ∧
    t.fbValid = true ∧ Sent (rowFrames t.fb) s t ∧ SameInput s t

/-- 60_exceptions.md R201 with the restart of R205: a candidate off the grid restarts the game with code 2. -/
def Obligations.TickOffTheGridRestarts : Prop :=
  ∀ s : State, s.geValid = true → s.cfg.initLen.toNat ≤ 64 → StepsOff s.pend (headOf s) → ∃ t : State,
    exec .geTick s = .next t ∧ Returned 2 s t ∧ InitialGame t ∧ Sent (rowFrames t.fb) s t ∧ SameInput s t

/-- 60_exceptions.md R202 with the restart of R205: a candidate on the grid that is not the food and is a segment, the
tail included, restarts the game with code 3. -/
def Obligations.TickIntoTheBodyRestarts : Prop :=
  ∀ (s : State) (c : Pos), s.geValid = true → s.cfg.initLen.toNat ≤ 64 →
    StepsTo s.pend (headOf s) c → c ≠ s.food → c ∈ body s → ∃ t : State,
    exec .geTick s = .next t ∧ Returned 3 s t ∧ InitialGame t ∧ Sent (rowFrames t.fb) s t ∧ SameInput s t

/-- 60_exceptions.md R203 with the restart of R205: 512 draws, all in the body after growth, restart the game with
code 4. -/
def Obligations.TickWithoutRoomForFoodRestarts : Prop :=
  ∀ s : State, s.geValid = true → s.cfg.initLen.toNat ≤ 64 →
    StepsTo s.pend (headOf s) s.food → 512 ≤ s.draws.length →
    (∀ q ∈ s.draws.take 512, q ∈ s.food :: body s) → ∃ t : State,
    exec .geTick s = .next t ∧ Returned 4 s t ∧ InitialGame t ∧ Sent (rowFrames t.fb) s t ∧ SameInput s t

/-- A growing tick whose draws run out before the 512th attempt has no step (42_game_state.md R162,
93_implementation_defined.md U10). That the model answers the fault `drawsRanOut` for being stuck is its choice, log
entry 5. -/
def Obligations.TickIsStuckWithoutDraws : Prop :=
  ∀ s : State, s.geValid = true → StepsTo s.pend (headOf s) s.food → s.draws.length < 512 →
    (∀ q ∈ s.draws, q ∈ s.food :: body s) → exec .geTick s = .fault .drawsRanOut

/-- Every tick that completes (42_game_state.md R164, R171; 30_encoding.md R87): one outcome code of 0 to 4, exactly the
eight frames of the image it leaves, and the length unchanged, one more, or the initial one; a code of 2, 3 or 4 leaves
the initial game, and after a code of 0 or 1 the pending direction is the committed one (10_state.md R30). -/
def Obligations.TickOutcomeSummary : Prop :=
  ∀ s t : State, s.cfg.initLen.toNat ≤ 64 → s.len.toNat ≤ 63 → exec .geTick s = .next t →
    Sent (rowFrames t.fb) s t ∧ ∃ code : Word, Returned code s t ∧
      ((code = 0 ∧ t.len = s.len ∧ t.pend = t.dir ∧ t.dir = s.pend) ∨
       (code = 1 ∧ t.len.toNat = s.len.toNat + 1 ∧ t.pend = t.dir ∧ t.dir = s.pend) ∨
       ((code = 2 ∨ code = 3 ∨ code = 4) ∧ t.len = s.cfg.initLen ∧ InitialGame t))

/-- After a restart the state depends on the configuration alone, not on the abandoned game (60_exceptions.md R206): two
ticks that restart, from any two games of one configuration, leave the same game, image and lines and send the same
frames. The slots beyond the initial length are free values (log entry 6) and nothing is said of them. -/
def Obligations.RestartDependsOnConfigAlone : Prop :=
  ∀ (s s' t t' : State) (code code' : Word),
    s'.cfg = s.cfg → s.cfg.initLen.toNat ≤ 64 →
    exec .geTick s = .next t → exec .geTick s' = .next t' →
    Returned code s t → Returned code' s' t' → 2 ≤ code.toNat → 2 ≤ code'.toNat →
    body t' = body t ∧ t'.len = t.len ∧ t'.dir = t.dir ∧ t'.pend = t.pend ∧ t'.food = t.food ∧ t'.vis = t.vis ∧
    t'.gstate = t.gstate ∧ SameFb t t' ∧ t'.lines = t.lines ∧
    ∃ fs : List Frame, t.frames = s.frames ++ fs ∧ t'.frames = s'.frames ++ fs

/-- Placement (42_game_state.md R162, R163): the first draw outside the excluded cells, within 512 attempts; exhaustion
after 512 rejected draws; `ranOut` when fewer than 512 draws are supplied and all are excluded, the model's name for the
stuck tick, log entry 5. -/
def Obligations.PlacementTakesTheFirstFreeDraw : Prop :=
  ∀ (excluded draws : List Pos),
    (∀ p : Pos, place excluded 512 draws = .accepted p ↔ p ∉ excluded ∧
      ∃ rejected rest : List Pos, draws = rejected ++ p :: rest ∧ rejected.length < 512 ∧
        ∀ q ∈ rejected, q ∈ excluded) ∧
    (place excluded 512 draws = .exhausted ↔ 512 ≤ draws.length ∧ ∀ q ∈ draws.take 512, q ∈ excluded) ∧
    (place excluded 512 draws = .ranOut ↔ draws.length < 512 ∧ ∀ q ∈ draws, q ∈ excluded)

/-- With 63 segments and the head at the food the body after growth covers the grid, so no draw is ever accepted and a
tick with 512 draws ends in exhaustion (42_game_state.md R167). -/
def Obligations.FullBoardAlwaysExhausts : Prop :=
  ∀ s : State, s.geValid = true → s.cfg.initLen.toNat ≤ 64 → GameInv s → s.len = 63 →
    StepsTo s.pend (headOf s) s.food →
    (∀ q : Pos, q ∈ s.food :: body s) ∧
    (512 ≤ s.draws.length → ∃ t : State, exec .geTick s = .next t ∧ Returned 4 s t ∧ InitialGame t)

/-! ### Blink, query, and reads before a write -/

/-- 42_game_state.md R168: the phase toggles, the food's pixel follows it unless the head is on the food, and the flush
happens always. -/
def Obligations.GeBlinkTogglesTheFood : Prop :=
  ∀ s : State,
    (s.geValid = true → s.fbValid = true → ∃ t : State,
      exec .geBlink s = .next t ∧ Returned 0 s t ∧ t.vis = !s.vis ∧ SameGame { s with vis := t.vis } t ∧
      (∀ q : Pos, fbPixelAt t.fb q =
        if q = s.food ∧ headOf s ≠ s.food then !s.vis else fbPixelAt s.fb q) ∧
      t.fbValid = true ∧ Sent (rowFrames t.fb) s t ∧ SameInput s t) ∧
    (s.geValid = false → exec .geBlink s = .fault .gameUnwritten)

/-- 42_game_state.md R169: every defined selector returns its value of 30_encoding.md R88, a Position as 16 x + y, a slot
at or beyond the length as 0xFF, and nothing changes; a reserved selector is refused, and a row before the framebuffer or
any other value before the game is written faults. -/
def Obligations.GeQueryReturnsTheSelectedValue : Prop :=
  ∀ (s : State) (sel : Byte),
    ((sel.toNat ≤ 0x06 ∨ (0x40 ≤ sel.toNat ∧ sel.toNat ≤ 0x87)) →
      (if 0x80 ≤ sel.toNat then s.fbValid = true else s.geValid = true) → ∃ (t : State) (v : Word),
      exec (.geQuery sel) s = .next t ∧ Returned v s t ∧ SameGame s t ∧ SameFb s t ∧ SameWire s t ∧ SameInput s t ∧
      v.toNat =
        (if sel = 0x00 then s.len.toNat
         else if sel = 0x01 then (dirCode s.dir).toNat
         else if sel = 0x02 then (dirCode s.pend).toNat
         else if sel = 0x03 then 16 * (segAt s 0).x.toNat + (segAt s 0).y.toNat
         else if sel = 0x04 then 16 * s.food.x.toNat + s.food.y.toNat
         else if sel = 0x05 then (if s.vis = true then 1 else 0)
         else if sel = 0x06 then 0
         else if sel.toNat ≤ 0x7F then
           (if sel.toNat - 0x40 < s.len.toNat then
              16 * (segAt s (BitVec.ofNat 6 (sel.toNat - 0x40))).x.toNat +
                (segAt s (BitVec.ofNat 6 (sel.toNat - 0x40))).y.toNat
            else 0xFF)
         else (s.fb.toList.getD (sel.toNat - 0x80) 0).toNat)) ∧
    ((0x07 ≤ sel.toNat ∧ sel.toNat ≤ 0x3F) ∨ 0x88 ≤ sel.toNat →
      exec (.geQuery sel) s = .refused .reservedSelector) ∧
    (0x80 ≤ sel.toNat ∧ sel.toNat ≤ 0x87 → s.fbValid = false →
      exec (.geQuery sel) s = .fault .framebufferUnwritten) ∧
    (sel.toNat ≤ 0x06 ∨ (0x40 ≤ sel.toNat ∧ sel.toNat ≤ 0x7F) → s.geValid = false →
      exec (.geQuery sel) s = .fault .gameUnwritten)

/-- The reads of unwritten state, each with its fault (70_reset_and_hazards.md R244). The reserved selectors among 0x00 to
0x7F spell no command and are refused before anything is read (30_encoding.md R89, 42_game_state.md R169). -/
def Obligations.ReadsOfUnwrittenStateFault : Prop :=
  ∀ s : State,
    (s.fbValid = false →
      (∀ r c : BitVec 3, exec (.mdGetpix r c) s = .fault .framebufferUnwritten) ∧
      exec .mdFlush s = .fault .framebufferUnwritten ∧
      (∀ sel : Byte, 0x80 ≤ sel.toNat → sel.toNat ≤ 0x87 →
        exec (.geQuery sel) s = .fault .framebufferUnwritten)) ∧
    (s.geValid = false →
      (∀ h v : BitVec 12, exec (.geSteer h v) s = .fault .gameUnwritten) ∧
      exec .geTick s = .fault .gameUnwritten ∧ exec .geBlink s = .fault .gameUnwritten ∧
      (∀ sel : Byte, sel.toNat ≤ 0x06 ∨ (0x40 ≤ sel.toNat ∧ sel.toNat ≤ 0x7F) →
        exec (.geQuery sel) s = .fault .gameUnwritten))

/-! ### Whole-machine rules -/

/-- Every command that completes returns exactly one result word and leaves no draw behind: a bit from MD.GETPIX, an
outcome of 0 to 4 from GE.TICK, a byte from GE.QUERY, 0 from every other (30_encoding.md R86, R87). -/
def Obligations.EveryCommandReturnsOneWord : Prop :=
  ∀ (s t : State) (i : Instr) (c : Word), encode i = .command c → exec i s = .next t →
    ∃ res : Word, Returned res s t ∧
      ((∃ r k, i = .mdGetpix r k) ∧ res.toNat ≤ 1 ∨ i = .geTick ∧ res.toNat ≤ 4 ∨
        (∃ sel, i = .geQuery sel) ∧ res.toNat ≤ 255 ∨ res = 0)

/-- Each element of the state is changed only by the writers that 10_state.md R20 lists for it, and no instruction changes
the configuration or the waiting input. GE.TICK writes `pend`, `vis` and `gstate` by a restart alone; the lines move only
through the frames sent. For `fbValid` the writers are R20's where a game implies a written framebuffer, as `Inv` says of
every state between commands (`Inv.fb_written`); in the other states, which no run reaches, a restart writes it too. GE.RESET
writes `gstate` because its `Construct()` does (42_game_state.md R150, R151). -/
def Obligations.OnlyListedWritersChangeState : Prop :=
  ∀ (s t : State) (i : Instr), exec i s = .next t →
    (t.seg ≠ s.seg ∨ t.len ≠ s.len ∨ t.dir ≠ s.dir ∨ t.food ≠ s.food → i = .geReset ∨ i = .geTick) ∧
    (t.pend ≠ s.pend → i = .geReset ∨ i = .geTick ∨ ∃ h v, i = .geSteer h v) ∧
    (t.vis ≠ s.vis → i = .geReset ∨ i = .geBlink ∨ i = .geTick) ∧
    (t.gstate ≠ s.gstate → i = .geReset ∨ i = .geTick) ∧
    (i = .geTick → t.pend ≠ s.pend ∨ t.vis ≠ s.vis ∨ t.gstate ≠ s.gstate →
      ∃ code : Word, Returned code s t ∧ 2 ≤ code.toNat) ∧
    (t.geValid ≠ s.geValid → i = .geReset) ∧
    ((s.geValid = true → s.fbValid = true) → t.fbValid ≠ s.fbValid → i = .mdInit ∨ i = .geReset) ∧
    (t.fbValid ≠ s.fbValid → i = .mdInit ∨ i = .geReset ∨ i = .geTick) ∧
    (t.fb ≠ s.fb → i = .mdInit ∨ i = .geReset ∨ i = .geTick ∨ i = .geBlink ∨ ∃ r c on, i = .mdSetpix r c on) ∧
    (∃ fs : List Frame, Sent fs s t) ∧
    SameInput s t

/-- The matrix driver's commands neither read nor write a game register (40_matrix_driver.md R123): in two states that
agree on the framebuffer, the wire, the results and the configuration they end alike, and they leave each game as it
was. -/
def Obligations.MatrixCommandsIgnoreTheGame : Prop :=
  ∀ (s s' t : State) (i : Instr),
    (i = .mdInit ∨ (∃ r c on, i = .mdSetpix r c on) ∨ (∃ r c, i = .mdGetpix r c) ∨ (∃ level, i = .mdSetint level) ∨
      (∃ sd, i = .mdShdn sd) ∨ i = .mdFlush) →
    SameFb s s' → SameWire s s' → s'.results = s.results → s'.cfg = s.cfg → exec i s = .next t →
    ∃ t' : State, exec i s' = .next t' ∧ SameFb t t' ∧ SameWire t t' ∧ t'.results = t.results ∧
      SameGame s t ∧ SameGame s' t'

/-- Game logic reads neither the framebuffer nor the blink phase (70_reset_and_hazards.md R246, 10_state.md R32,
42_game_state.md R159): from two states with the same game, configuration and draws, whatever their pixels and phase,
every instruction ends alike, leaves the same game, and a tick returns the same outcome. -/
def Obligations.GameLogicIgnoresPixelsAndPhase : Prop :=
  ∀ (s s' t : State) (i : Instr), SameLogic s s' → exec i s = .next t →
    ∃ t' : State, exec i s' = .next t' ∧ SameLogic t t' ∧
      (i = .geTick → ∃ code : Word, Returned code s t ∧ Returned code s' t')

/-- The invariant of the state between commands, kept by every step: the length stays in [1,63], the segments distinct,
the food off the snake, the pending direction equal or perpendicular to the committed one, a game Running, the lines
idle (10_state.md R25, R28, R33, R36, R37; 41_input_sampler.md R142). -/
def Obligations.StepKeepsTheInvariant : Prop :=
  ∀ s s' : State, Inv s → step s = .next s' → Inv s'

/-- The invariant holds right after reset. -/
def Obligations.ResetMeetsTheInvariant : Prop := Inv State.reset ∧ LinesFollowTrace State.reset

/-- Frame-image consistency (10_state.md R39): a step that runs neither MD.INIT nor MD.SETPIX keeps the framebuffer the
image of the snake and the shown food. -/
def Obligations.StepKeepsTheImage : Prop :=
  ∀ s s' : State, Inv s → s.geValid = true → ImageOk s →
    (∀ c rest, s.port = c :: rest → opcode c.word ≠ 0x1 ∧ opcode c.word ≠ 0x2) →
    step s = .next s' → ImageOk s'

/-- A construction makes the framebuffer the image of the snake and the shown food, whatever it was (10_state.md R39,
42_game_state.md R152). -/
def Obligations.GeResetMakesTheImage : Prop :=
  ∀ s : State, configValid s.cfg = true → ∃ t : State, exec .geReset s = .next t ∧ ImageOk t

/-- Every command completes (60_exceptions.md R224): with a game constructed and a valid configuration, every command
word that decodes takes a step and returns its one result; a tick needs no more than 512 draws. -/
def Obligations.EveryCommandCompletes : Prop :=
  ∀ (s : State) (c : HostCommand) (rest : List HostCommand) (i : Instr),
    Inv s → s.geValid = true → configValid s.cfg = true → s.port = c :: rest →
    decode (.command c.word) = .ok i → (i = .geTick → 512 ≤ c.draws.length) →
    ∃ t : State, step s = .next t ∧ t.port = rest ∧ t.results.length = s.results.length + 1

/-- A step takes at most one input, never changes the configuration, and only appends to what was returned and sent
(00_scope.md R6, R9). -/
def Obligations.StepOnlyAppendsToTheObservation : Prop :=
  ∀ s s' : State, step s = .next s' →
    s'.cfg = s.cfg ∧ (s'.port = s.port ∨ ∃ c, s.port = c :: s'.port) ∧
    (∃ rs, s'.results = s.results ++ rs ∧ rs.length ≤ 1) ∧ (∃ fs, s'.frames = s.frames ++ fs ∧ fs.length ≤ 13)

/-! ### Codes and the host's side -/

/-- 10_state.md R29 and 00_scope.md R17: the direction codes, and that two directions are perpendicular exactly when bit
1 of their codes differs. -/
def Obligations.DirectionCodesAndPerpendicularity : Prop :=
  dirCode .up = 0 ∧ dirCode .down = 1 ∧ dirCode .left = 2 ∧ dirCode .right = 3 ∧
  ∀ a b : Dir,
    (perpendicular a b = true ↔ ((a = .up ∨ a = .down) ∧ (b = .left ∨ b = .right)) ∨
      ((a = .left ∨ a = .right) ∧ (b = .up ∨ b = .down))) ∧
    (perpendicular a b = true ↔ (dirCode a).getLsbD 1 ≠ (dirCode b).getLsbD 1)

/-- 10_state.md R27: a packed Position has `x` in bits [7:4] and `y` in bits [3:0], bits 7 and 3 are 0, and packing loses
nothing. -/
def Obligations.PackedPosition : Prop :=
  ∀ p q : Pos, (pack p).toNat = 16 * p.x.toNat + p.y.toNat ∧ (pack p).getLsbD 7 = false ∧
    (pack p).getLsbD 3 = false ∧ (pack p = pack q ↔ p = q)

/-- 60_exceptions.md R216, for a time of any width: a task is due when `now - lastFired`, modulo 2^bits, is at least the
interval, and then `lastFired` becomes `now`. The scheduler is the host's (log entry 13). -/
def Obligations.SchedulerDueTest : Prop :=
  ∀ (bits : Nat) (now : BitVec bits) (t : Task bits),
    (taskDue now t = true ↔ t.interval ≤ (now.toNat + (2 ^ bits - t.lastFired.toNat)) % 2 ^ bits) ∧
    (taskCheck now t).interval = t.interval ∧
    (taskCheck now t).lastFired = if taskDue now t = true then now else t.lastFired

/-- 60_exceptions.md R215: a loop iteration issues the samples, then the tick if the frame task is due, then the blink if
the blink task is due, and each word decodes to that command. The loop is the host's (log entry 13). -/
def Obligations.HostLoopOrder : Prop :=
  ∀ (bits : Nat) (h v : BitVec 12) (nowFrame nowBlink : BitVec bits) (draws : List Pos) (sched : Scheduler bits),
    (loopCommands h v nowFrame nowBlink draws sched).map (fun c => decode (.command c.word)) =
      [.ok (.geSteer h v)] ++ (if taskDue nowFrame sched.frame = true then [.ok .geTick] else []) ++
        (if taskDue nowBlink sched.blink = true then [.ok .geBlink] else [])

/-- 30_encoding.md R94, with the fields of R85: the operands each mnemonic takes, and that an operand that does not fit its
field is an assembly error. The spelling of numbers and spaces is not part of the statement. -/
def Obligations.AssemblerChecksTheFields : Prop :=
  (commandOf "md.init" [] = some .mdInit ∧ commandOf "md.flush" [] = some .mdFlush ∧
    commandOf "ge.reset" [] = some .geReset ∧ commandOf "ge.tick" [] = some .geTick ∧
    commandOf "ge.blink" [] = some .geBlink) ∧
  (∀ row col on : Nat, commandOf "md.setpix" [row, col, on] =
    if row ≤ 7 ∧ col ≤ 7 ∧ on ≤ 1 then some (.mdSetpix (BitVec.ofNat 3 row) (BitVec.ofNat 3 col) (on == 1)) else none) ∧
  (∀ row col : Nat, commandOf "md.getpix" [row, col] =
    if row ≤ 7 ∧ col ≤ 7 then some (.mdGetpix (BitVec.ofNat 3 row) (BitVec.ofNat 3 col)) else none) ∧
  (∀ level : Nat, commandOf "md.setint" [level] =
    if level ≤ 255 then some (.mdSetint (BitVec.ofNat 8 level)) else none) ∧
  (∀ sd : Nat, commandOf "md.shdn" [sd] = if sd ≤ 1 then some (.mdShdn (sd == 1)) else none) ∧
  (∀ h v : Nat, commandOf "ge.steer" [h, v] =
    if h ≤ 4095 ∧ v ≤ 4095 then some (.geSteer (BitVec.ofNat 12 h) (BitVec.ofNat 12 v)) else none) ∧
  (∀ sel : Nat, commandOf "ge.query" [sel] = if sel ≤ 255 then some (.geQuery (BitVec.ofNat 8 sel)) else none)
end

