-- ==== Sys2Proof/Laws/Encoding.lean ====
section
/-! SUPPORT. The bits of each encoded word, one lemma a format, so that no proof unfolds a concatenation. -/

namespace Sys2Proof

theorem getLsbD_append' {n m : Nat} (a : BitVec n) (b : BitVec m) (j : Nat) :
    BitVec.getLsbD (w := n + m) (a ++ b) j = if j < m then b.getLsbD j else a.getLsbD (j - m) := by
  rw [BitVec.getLsbD_append]

theorem wordN_getLsbD (op : BitVec 4) (j : Nat) :
    (wordN op).getLsbD j = if j < 28 then false else op.getLsbD (j - 28) :=
  (getLsbD_append' _ _ j).trans (by simp)

theorem wordS_getLsbD (op : BitVec 4) (h v : BitVec 12) (j : Nat) :
    (wordS op h v).getLsbD j =
      if j < 12 then v.getLsbD j else if j < 24 then h.getLsbD (j - 12)
      else if j < 28 then false else op.getLsbD (j - 28) := by
  refine (getLsbD_append' (op ++ 0#4 ++ h) v j).trans ?_
  rw [getLsbD_append' (op ++ 0#4) h, getLsbD_append' op 0#4]
  split_ifs <;> first | rfl | omega | simp_all

theorem wordB_getLsbD (op : BitVec 4) (field : Byte) (j : Nat) :
    (wordB op field).getLsbD j =
      if j < 8 then field.getLsbD j else if j < 28 then false else op.getLsbD (j - 28) := by
  refine (getLsbD_append' (op ++ 0#20) field j).trans ?_
  rw [getLsbD_append' op 0#20]
  split_ifs <;> first | rfl | omega | simp_all

theorem wordF_getLsbD (op : BitVec 4) (flag : Bool) (j : Nat) :
    (wordF op flag).getLsbD j =
      if j = 0 then flag else if j < 28 then false else op.getLsbD (j - 28) := by
  refine (getLsbD_append' (op ++ 0#27) (BitVec.ofBool flag) j).trans ?_
  rw [getLsbD_append' op 0#27]
  rcases j with _ | j
  · simp
  · rw [if_neg (by omega)]
    split_ifs <;> first | rfl | omega | simp_all

theorem wordPg_getLsbD (op : BitVec 4) (row col : BitVec 3) (j : Nat) :
    (wordPg op row col).getLsbD j =
      if j < 4 then false else if j < 7 then col.getLsbD (j - 4) else if j < 8 then false
      else if j < 11 then row.getLsbD (j - 8) else if j < 28 then false else op.getLsbD (j - 28) := by
  refine (getLsbD_append' (op ++ 0#17 ++ row ++ 0#1 ++ col) 0#4 j).trans ?_
  rw [getLsbD_append' (op ++ 0#17 ++ row ++ 0#1) col, getLsbD_append' (op ++ 0#17 ++ row) 0#1,
    getLsbD_append' (op ++ 0#17) row, getLsbD_append' op 0#17]
  split_ifs <;> first | rfl | omega | simp_all

theorem wordP_getLsbD (op : BitVec 4) (row col : BitVec 3) (on : Bool) (j : Nat) :
    (wordP op row col on).getLsbD j =
      if j = 0 then on else if j < 4 then false else if j < 7 then col.getLsbD (j - 4) else if j < 8 then false
      else if j < 11 then row.getLsbD (j - 8) else if j < 28 then false else op.getLsbD (j - 28) := by
  refine (getLsbD_append' (op ++ 0#17 ++ row ++ 0#1 ++ col ++ 0#3) (BitVec.ofBool on) j).trans ?_
  rw [getLsbD_append' (op ++ 0#17 ++ row ++ 0#1 ++ col) 0#3, getLsbD_append' (op ++ 0#17 ++ row ++ 0#1) col,
    getLsbD_append' (op ++ 0#17 ++ row) 0#1, getLsbD_append' (op ++ 0#17) row, getLsbD_append' op 0#17]
  rcases j with _ | j
  · simp
  · rw [if_neg (by omega)]
    split_ifs <;> first | rfl | omega | simp_all

theorem frameWord_getLsbD (addr data : Byte) (j : Nat) :
    (frameWord addr data).getLsbD j = if j < 8 then data.getLsbD j else addr.getLsbD (j - 8) :=
  getLsbD_append' _ _ j

/-- The address half of a frame word (30_encoding.md rule R90). -/
@[simp] theorem frameWord_addr (addr data : Byte) : (frameWord addr data).extractLsb' 8 8 = addr := by
  apply BitVec.eq_of_getLsbD_eq
  intro j hj
  rw [BitVec.getLsbD_extractLsb', frameWord_getLsbD]
  simp [hj]

/-- The data half of a frame word (30_encoding.md rule R90). -/
@[simp] theorem frameWord_data (addr data : Byte) : (frameWord addr data).extractLsb' 0 8 = data := by
  apply BitVec.eq_of_getLsbD_eq
  intro j hj
  rw [BitVec.getLsbD_extractLsb', frameWord_getLsbD]
  simp [hj]

/-- A selector is reserved exactly when it is not defined (30_encoding.md rules R88, R89). -/
theorem selectorReserved_eq (sel : Byte) : selectorReserved sel = !selectorDefined sel := by
  revert sel; decide

/-- An instruction comes out of a format's check only with its should-be-zero bits 0 (30_encoding.md rule R82). -/
theorem checkSbz_eq_ok {mask c : Word} {i j : Instr} (h : checkSbz mask c i = .ok j) : c &&& mask = 0 ∧ i = j := by
  unfold checkSbz at h
  split at h
  · rename_i hm; cases h; exact ⟨hm, rfl⟩
  · cases h

theorem checkSbz_of_zero {mask c : Word} {i : Instr} (h : c &&& mask = 0) : checkSbz mask c i = .ok i := if_pos h

end Sys2Proof
end

