-- ==== Sys2Proof/Laws/State.lean ====
section
/-! SUPPORT. What each update of the state leaves in each field, one lemma a field, so that no later proof unfolds a
record update. -/

namespace Sys2Proof.Machine

@[simp] theorem emitFrame_fb (addr data : Byte) (s : State) : (emitFrame addr data s).fb = s.fb := by simp only [emitFrame, emitFrames]
@[simp] theorem emitFrame_fbValid (addr data : Byte) (s : State) :
    (emitFrame addr data s).fbValid = s.fbValid := by simp only [emitFrame, emitFrames]
@[simp] theorem emitFrame_lines (addr data : Byte) (s : State) :
    (emitFrame addr data s).lines = runEvents s.lines (writeEvents ⟨addr, data⟩) := by
  simp [emitFrame, emitFrames]
@[simp] theorem emitFrame_seg (addr data : Byte) (s : State) :
    (emitFrame addr data s).seg = s.seg := by simp only [emitFrame, emitFrames]
@[simp] theorem emitFrame_len (addr data : Byte) (s : State) :
    (emitFrame addr data s).len = s.len := by simp only [emitFrame, emitFrames]
@[simp] theorem emitFrame_dir (addr data : Byte) (s : State) :
    (emitFrame addr data s).dir = s.dir := by simp only [emitFrame, emitFrames]
@[simp] theorem emitFrame_pend (addr data : Byte) (s : State) :
    (emitFrame addr data s).pend = s.pend := by simp only [emitFrame, emitFrames]
@[simp] theorem emitFrame_food (addr data : Byte) (s : State) :
    (emitFrame addr data s).food = s.food := by simp only [emitFrame, emitFrames]
@[simp] theorem emitFrame_vis (addr data : Byte) (s : State) :
    (emitFrame addr data s).vis = s.vis := by simp only [emitFrame, emitFrames]
@[simp] theorem emitFrame_gstate (addr data : Byte) (s : State) :
    (emitFrame addr data s).gstate = s.gstate := by simp only [emitFrame, emitFrames]
@[simp] theorem emitFrame_geValid (addr data : Byte) (s : State) :
    (emitFrame addr data s).geValid = s.geValid := by simp only [emitFrame, emitFrames]
@[simp] theorem emitFrame_cfg (addr data : Byte) (s : State) :
    (emitFrame addr data s).cfg = s.cfg := by simp only [emitFrame, emitFrames]
@[simp] theorem emitFrame_draws (addr data : Byte) (s : State) :
    (emitFrame addr data s).draws = s.draws := by simp only [emitFrame, emitFrames]
@[simp] theorem emitFrame_port (addr data : Byte) (s : State) :
    (emitFrame addr data s).port = s.port := by simp only [emitFrame, emitFrames]
@[simp] theorem emitFrame_pendingFrame (addr data : Byte) (s : State) :
    (emitFrame addr data s).pendingFrame = s.pendingFrame := by simp only [emitFrame, emitFrames]
@[simp] theorem emitFrame_results (addr data : Byte) (s : State) :
    (emitFrame addr data s).results = s.results := by simp only [emitFrame, emitFrames]
@[simp] theorem emitFrame_frames (addr data : Byte) (s : State) :
    (emitFrame addr data s).frames = s.frames ++ [⟨addr, data⟩] := by simp only [emitFrame, emitFrames]
@[simp] theorem emitFrame_fresh (addr data : Byte) (s : State) :
    (emitFrame addr data s).fresh = s.fresh := by simp only [emitFrame, emitFrames]

@[simp] theorem setPixel_fb (r c : BitVec 3) (b : Bool) (s : State) :
    (setPixel r c b s).fb = fbSet s.fb r c b := rfl
@[simp] theorem setPixel_fbValid (r c : BitVec 3) (b : Bool) (s : State) :
    (setPixel r c b s).fbValid = s.fbValid := rfl
@[simp] theorem setPixel_lines (r c : BitVec 3) (b : Bool) (s : State) :
    (setPixel r c b s).lines = s.lines := rfl
@[simp] theorem setPixel_seg (r c : BitVec 3) (b : Bool) (s : State) :
    (setPixel r c b s).seg = s.seg := rfl
@[simp] theorem setPixel_len (r c : BitVec 3) (b : Bool) (s : State) :
    (setPixel r c b s).len = s.len := rfl
@[simp] theorem setPixel_dir (r c : BitVec 3) (b : Bool) (s : State) :
    (setPixel r c b s).dir = s.dir := rfl
@[simp] theorem setPixel_pend (r c : BitVec 3) (b : Bool) (s : State) :
    (setPixel r c b s).pend = s.pend := rfl
@[simp] theorem setPixel_food (r c : BitVec 3) (b : Bool) (s : State) :
    (setPixel r c b s).food = s.food := rfl
@[simp] theorem setPixel_vis (r c : BitVec 3) (b : Bool) (s : State) :
    (setPixel r c b s).vis = s.vis := rfl
@[simp] theorem setPixel_gstate (r c : BitVec 3) (b : Bool) (s : State) :
    (setPixel r c b s).gstate = s.gstate := rfl
@[simp] theorem setPixel_geValid (r c : BitVec 3) (b : Bool) (s : State) :
    (setPixel r c b s).geValid = s.geValid := rfl
@[simp] theorem setPixel_cfg (r c : BitVec 3) (b : Bool) (s : State) :
    (setPixel r c b s).cfg = s.cfg := rfl
@[simp] theorem setPixel_draws (r c : BitVec 3) (b : Bool) (s : State) :
    (setPixel r c b s).draws = s.draws := rfl
@[simp] theorem setPixel_port (r c : BitVec 3) (b : Bool) (s : State) :
    (setPixel r c b s).port = s.port := rfl
@[simp] theorem setPixel_pendingFrame (r c : BitVec 3) (b : Bool) (s : State) :
    (setPixel r c b s).pendingFrame = s.pendingFrame := rfl
@[simp] theorem setPixel_results (r c : BitVec 3) (b : Bool) (s : State) :
    (setPixel r c b s).results = s.results := rfl
@[simp] theorem setPixel_frames (r c : BitVec 3) (b : Bool) (s : State) :
    (setPixel r c b s).frames = s.frames := rfl
@[simp] theorem setPixel_fresh (r c : BitVec 3) (b : Bool) (s : State) :
    (setPixel r c b s).fresh = s.fresh := rfl

@[simp] theorem setPixelAt_fb (p : Pos) (b : Bool) (s : State) :
    (setPixelAt p b s).fb = fbSetAt s.fb p b := rfl
@[simp] theorem setPixelAt_fbValid (p : Pos) (b : Bool) (s : State) :
    (setPixelAt p b s).fbValid = s.fbValid := rfl
@[simp] theorem setPixelAt_lines (p : Pos) (b : Bool) (s : State) :
    (setPixelAt p b s).lines = s.lines := rfl
@[simp] theorem setPixelAt_seg (p : Pos) (b : Bool) (s : State) : (setPixelAt p b s).seg = s.seg := rfl
@[simp] theorem setPixelAt_len (p : Pos) (b : Bool) (s : State) : (setPixelAt p b s).len = s.len := rfl
@[simp] theorem setPixelAt_dir (p : Pos) (b : Bool) (s : State) : (setPixelAt p b s).dir = s.dir := rfl
@[simp] theorem setPixelAt_pend (p : Pos) (b : Bool) (s : State) :
    (setPixelAt p b s).pend = s.pend := rfl
@[simp] theorem setPixelAt_food (p : Pos) (b : Bool) (s : State) :
    (setPixelAt p b s).food = s.food := rfl
@[simp] theorem setPixelAt_vis (p : Pos) (b : Bool) (s : State) : (setPixelAt p b s).vis = s.vis := rfl
@[simp] theorem setPixelAt_gstate (p : Pos) (b : Bool) (s : State) :
    (setPixelAt p b s).gstate = s.gstate := rfl
@[simp] theorem setPixelAt_geValid (p : Pos) (b : Bool) (s : State) :
    (setPixelAt p b s).geValid = s.geValid := rfl
@[simp] theorem setPixelAt_cfg (p : Pos) (b : Bool) (s : State) : (setPixelAt p b s).cfg = s.cfg := rfl
@[simp] theorem setPixelAt_draws (p : Pos) (b : Bool) (s : State) :
    (setPixelAt p b s).draws = s.draws := rfl
@[simp] theorem setPixelAt_port (p : Pos) (b : Bool) (s : State) :
    (setPixelAt p b s).port = s.port := rfl
@[simp] theorem setPixelAt_pendingFrame (p : Pos) (b : Bool) (s : State) :
    (setPixelAt p b s).pendingFrame = s.pendingFrame := rfl
@[simp] theorem setPixelAt_results (p : Pos) (b : Bool) (s : State) :
    (setPixelAt p b s).results = s.results := rfl
@[simp] theorem setPixelAt_frames (p : Pos) (b : Bool) (s : State) :
    (setPixelAt p b s).frames = s.frames := rfl
@[simp] theorem setPixelAt_fresh (p : Pos) (b : Bool) (s : State) :
    (setPixelAt p b s).fresh = s.fresh := rfl


@[simp] theorem emitRows_fb (s : State) : (emitRows s).fb = s.fb := by simp only [emitRows, emitFrames]
@[simp] theorem emitRows_fbValid (s : State) : (emitRows s).fbValid = s.fbValid := by simp only [emitRows, emitFrames]
@[simp] theorem emitRows_seg (s : State) : (emitRows s).seg = s.seg := by simp only [emitRows, emitFrames]
@[simp] theorem emitRows_len (s : State) : (emitRows s).len = s.len := by simp only [emitRows, emitFrames]
@[simp] theorem emitRows_dir (s : State) : (emitRows s).dir = s.dir := by simp only [emitRows, emitFrames]
@[simp] theorem emitRows_pend (s : State) : (emitRows s).pend = s.pend := by simp only [emitRows, emitFrames]
@[simp] theorem emitRows_food (s : State) : (emitRows s).food = s.food := by simp only [emitRows, emitFrames]
@[simp] theorem emitRows_vis (s : State) : (emitRows s).vis = s.vis := by simp only [emitRows, emitFrames]
@[simp] theorem emitRows_gstate (s : State) : (emitRows s).gstate = s.gstate := by simp only [emitRows, emitFrames]
@[simp] theorem emitRows_geValid (s : State) : (emitRows s).geValid = s.geValid := by simp only [emitRows, emitFrames]
@[simp] theorem emitRows_cfg (s : State) : (emitRows s).cfg = s.cfg := by simp only [emitRows, emitFrames]
@[simp] theorem emitRows_draws (s : State) : (emitRows s).draws = s.draws := by simp only [emitRows, emitFrames]
@[simp] theorem emitRows_port (s : State) : (emitRows s).port = s.port := by simp only [emitRows, emitFrames]
@[simp] theorem emitRows_pendingFrame (s : State) : (emitRows s).pendingFrame = s.pendingFrame := by simp only [emitRows, emitFrames]
@[simp] theorem emitRows_results (s : State) : (emitRows s).results = s.results := by simp only [emitRows, emitFrames]
@[simp] theorem emitRows_fresh (s : State) : (emitRows s).fresh = s.fresh := by simp only [emitRows, emitFrames]

@[simp] theorem enterRestart_fb (s : State) : (enterRestart s).fb = s.fb := rfl
@[simp] theorem enterRestart_fbValid (s : State) : (enterRestart s).fbValid = s.fbValid := rfl
@[simp] theorem enterRestart_lines (s : State) : (enterRestart s).lines = s.lines := rfl
@[simp] theorem enterRestart_seg (s : State) : (enterRestart s).seg = s.seg := rfl
@[simp] theorem enterRestart_len (s : State) : (enterRestart s).len = s.len := rfl
@[simp] theorem enterRestart_dir (s : State) : (enterRestart s).dir = s.dir := rfl
@[simp] theorem enterRestart_pend (s : State) : (enterRestart s).pend = s.pend := rfl
@[simp] theorem enterRestart_food (s : State) : (enterRestart s).food = s.food := rfl
@[simp] theorem enterRestart_vis (s : State) : (enterRestart s).vis = s.vis := rfl
@[simp] theorem enterRestart_gstate (s : State) : (enterRestart s).gstate = .restarting := rfl
@[simp] theorem enterRestart_geValid (s : State) : (enterRestart s).geValid = s.geValid := rfl
@[simp] theorem enterRestart_cfg (s : State) : (enterRestart s).cfg = s.cfg := rfl
@[simp] theorem enterRestart_draws (s : State) : (enterRestart s).draws = s.draws := rfl
@[simp] theorem enterRestart_port (s : State) : (enterRestart s).port = s.port := rfl
@[simp] theorem enterRestart_pendingFrame (s : State) :
    (enterRestart s).pendingFrame = s.pendingFrame := rfl
@[simp] theorem enterRestart_results (s : State) : (enterRestart s).results = s.results := rfl
@[simp] theorem enterRestart_frames (s : State) : (enterRestart s).frames = s.frames := rfl
@[simp] theorem enterRestart_fresh (s : State) : (enterRestart s).fresh = s.fresh := rfl

@[simp] theorem leaveRestart_fb (s : State) : (leaveRestart s).fb = s.fb := rfl
@[simp] theorem leaveRestart_fbValid (s : State) : (leaveRestart s).fbValid = s.fbValid := rfl
@[simp] theorem leaveRestart_lines (s : State) : (leaveRestart s).lines = s.lines := rfl
@[simp] theorem leaveRestart_seg (s : State) : (leaveRestart s).seg = s.seg := rfl
@[simp] theorem leaveRestart_len (s : State) : (leaveRestart s).len = s.len := rfl
@[simp] theorem leaveRestart_dir (s : State) : (leaveRestart s).dir = s.dir := rfl
@[simp] theorem leaveRestart_pend (s : State) : (leaveRestart s).pend = s.pend := rfl
@[simp] theorem leaveRestart_food (s : State) : (leaveRestart s).food = s.food := rfl
@[simp] theorem leaveRestart_vis (s : State) : (leaveRestart s).vis = s.vis := rfl
@[simp] theorem leaveRestart_gstate (s : State) : (leaveRestart s).gstate = .running := rfl
@[simp] theorem leaveRestart_geValid (s : State) : (leaveRestart s).geValid = s.geValid := rfl
@[simp] theorem leaveRestart_cfg (s : State) : (leaveRestart s).cfg = s.cfg := rfl
@[simp] theorem leaveRestart_draws (s : State) : (leaveRestart s).draws = s.draws := rfl
@[simp] theorem leaveRestart_port (s : State) : (leaveRestart s).port = s.port := rfl
@[simp] theorem leaveRestart_pendingFrame (s : State) :
    (leaveRestart s).pendingFrame = s.pendingFrame := rfl
@[simp] theorem leaveRestart_results (s : State) : (leaveRestart s).results = s.results := rfl
@[simp] theorem leaveRestart_frames (s : State) : (leaveRestart s).frames = s.frames := rfl
@[simp] theorem leaveRestart_fresh (s : State) : (leaveRestart s).fresh = s.fresh := rfl

@[simp] theorem construct_fb (s : State) :
    (construct s).fb = imageOf (initBody s.cfg) s.cfg.initFood := rfl
@[simp] theorem construct_fbValid (s : State) : (construct s).fbValid = true := rfl
@[simp] theorem construct_lines (s : State) : (construct s).lines = s.lines := rfl
@[simp] theorem construct_seg (s : State) : (construct s).seg = initSeg s.cfg s.fresh := rfl
@[simp] theorem construct_len (s : State) : (construct s).len = s.cfg.initLen := rfl
@[simp] theorem construct_dir (s : State) : (construct s).dir = s.cfg.initDir := rfl
@[simp] theorem construct_pend (s : State) : (construct s).pend = s.cfg.initDir := rfl
@[simp] theorem construct_food (s : State) : (construct s).food = s.cfg.initFood := rfl
@[simp] theorem construct_vis (s : State) : (construct s).vis = true := rfl
@[simp] theorem construct_gstate (s : State) : (construct s).gstate = .running := rfl
@[simp] theorem construct_geValid (s : State) : (construct s).geValid = true := rfl
@[simp] theorem construct_cfg (s : State) : (construct s).cfg = s.cfg := rfl
@[simp] theorem construct_draws (s : State) : (construct s).draws = s.draws := rfl
@[simp] theorem construct_port (s : State) : (construct s).port = s.port := rfl
@[simp] theorem construct_pendingFrame (s : State) : (construct s).pendingFrame = s.pendingFrame := rfl
@[simp] theorem construct_results (s : State) : (construct s).results = s.results := rfl
@[simp] theorem construct_frames (s : State) : (construct s).frames = s.frames := rfl
@[simp] theorem construct_fresh (s : State) : (construct s).fresh = s.fresh + 1 := rfl

@[simp] theorem emitControlFrames_fb (s : State) : (emitControlFrames s).fb = s.fb := by
  simp only [emitControlFrames, emitFrames]
@[simp] theorem emitControlFrames_fbValid (s : State) : (emitControlFrames s).fbValid = s.fbValid := by
  simp only [emitControlFrames, emitFrames]
@[simp] theorem emitControlFrames_seg (s : State) : (emitControlFrames s).seg = s.seg := by
  simp only [emitControlFrames, emitFrames]
@[simp] theorem emitControlFrames_len (s : State) : (emitControlFrames s).len = s.len := by
  simp only [emitControlFrames, emitFrames]
@[simp] theorem emitControlFrames_dir (s : State) : (emitControlFrames s).dir = s.dir := by
  simp only [emitControlFrames, emitFrames]
@[simp] theorem emitControlFrames_pend (s : State) : (emitControlFrames s).pend = s.pend := by
  simp only [emitControlFrames, emitFrames]
@[simp] theorem emitControlFrames_food (s : State) : (emitControlFrames s).food = s.food := by
  simp only [emitControlFrames, emitFrames]
@[simp] theorem emitControlFrames_vis (s : State) : (emitControlFrames s).vis = s.vis := by
  simp only [emitControlFrames, emitFrames]
@[simp] theorem emitControlFrames_gstate (s : State) : (emitControlFrames s).gstate = s.gstate := by
  simp only [emitControlFrames, emitFrames]
@[simp] theorem emitControlFrames_geValid (s : State) : (emitControlFrames s).geValid = s.geValid := by
  simp only [emitControlFrames, emitFrames]
@[simp] theorem emitControlFrames_cfg (s : State) : (emitControlFrames s).cfg = s.cfg := by
  simp only [emitControlFrames, emitFrames]
@[simp] theorem emitControlFrames_draws (s : State) : (emitControlFrames s).draws = s.draws := by
  simp only [emitControlFrames, emitFrames]
@[simp] theorem emitControlFrames_port (s : State) : (emitControlFrames s).port = s.port := by
  simp only [emitControlFrames, emitFrames]
@[simp] theorem emitControlFrames_pendingFrame (s : State) :
    (emitControlFrames s).pendingFrame = s.pendingFrame := by
  simp only [emitControlFrames, emitFrames]
@[simp] theorem emitControlFrames_results (s : State) : (emitControlFrames s).results = s.results := by
  simp only [emitControlFrames, emitFrames]
@[simp] theorem emitControlFrames_frames (s : State) :
    (emitControlFrames s).frames = s.frames ++ controlFrames s.cfg := by
  simp only [emitControlFrames, emitFrames]
@[simp] theorem emitControlFrames_fresh (s : State) : (emitControlFrames s).fresh = s.fresh := by
  simp only [emitControlFrames, emitFrames]

@[simp] theorem commitGrow_fb (c p : Pos) (s : State) :
    (commitGrow c p s).fb = fbSetAt (fbSetAt s.fb c true) p s.vis := rfl
@[simp] theorem commitGrow_fbValid (c p : Pos) (s : State) :
    (commitGrow c p s).fbValid = s.fbValid := rfl
@[simp] theorem commitGrow_lines (c p : Pos) (s : State) : (commitGrow c p s).lines = s.lines := rfl
@[simp] theorem commitGrow_seg (c p : Pos) (s : State) :
    (commitGrow c p s).seg = pushHead c (s.len.toNat + 1) s.seg := rfl
@[simp] theorem commitGrow_len (c p : Pos) (s : State) : (commitGrow c p s).len = s.len + 1 := rfl
@[simp] theorem commitGrow_dir (c p : Pos) (s : State) : (commitGrow c p s).dir = s.pend := rfl
@[simp] theorem commitGrow_pend (c p : Pos) (s : State) : (commitGrow c p s).pend = s.pend := rfl
@[simp] theorem commitGrow_food (c p : Pos) (s : State) : (commitGrow c p s).food = p := rfl
@[simp] theorem commitGrow_vis (c p : Pos) (s : State) : (commitGrow c p s).vis = s.vis := rfl
@[simp] theorem commitGrow_gstate (c p : Pos) (s : State) : (commitGrow c p s).gstate = s.gstate := rfl
@[simp] theorem commitGrow_geValid (c p : Pos) (s : State) :
    (commitGrow c p s).geValid = s.geValid := rfl
@[simp] theorem commitGrow_cfg (c p : Pos) (s : State) : (commitGrow c p s).cfg = s.cfg := rfl
@[simp] theorem commitGrow_draws (c p : Pos) (s : State) : (commitGrow c p s).draws = s.draws := rfl
@[simp] theorem commitGrow_port (c p : Pos) (s : State) : (commitGrow c p s).port = s.port := rfl
@[simp] theorem commitGrow_pendingFrame (c p : Pos) (s : State) :
    (commitGrow c p s).pendingFrame = s.pendingFrame := rfl
@[simp] theorem commitGrow_results (c p : Pos) (s : State) :
    (commitGrow c p s).results = s.results := rfl
@[simp] theorem commitGrow_frames (c p : Pos) (s : State) : (commitGrow c p s).frames = s.frames := rfl
@[simp] theorem commitGrow_fresh (c p : Pos) (s : State) : (commitGrow c p s).fresh = s.fresh := rfl

@[simp] theorem commitMove_fb (c : Pos) (s : State) :
    (commitMove c s).fb = fbSetAt (fbSetAt s.fb (tailOf s) false) c true := rfl
@[simp] theorem commitMove_fbValid (c : Pos) (s : State) : (commitMove c s).fbValid = s.fbValid := rfl
@[simp] theorem commitMove_lines (c : Pos) (s : State) : (commitMove c s).lines = s.lines := rfl
@[simp] theorem commitMove_seg (c : Pos) (s : State) :
    (commitMove c s).seg = pushHead c s.len.toNat s.seg := rfl
@[simp] theorem commitMove_len (c : Pos) (s : State) : (commitMove c s).len = s.len := rfl
@[simp] theorem commitMove_dir (c : Pos) (s : State) : (commitMove c s).dir = s.pend := rfl
@[simp] theorem commitMove_pend (c : Pos) (s : State) : (commitMove c s).pend = s.pend := rfl
@[simp] theorem commitMove_food (c : Pos) (s : State) : (commitMove c s).food = s.food := rfl
@[simp] theorem commitMove_vis (c : Pos) (s : State) : (commitMove c s).vis = s.vis := rfl
@[simp] theorem commitMove_gstate (c : Pos) (s : State) : (commitMove c s).gstate = s.gstate := rfl
@[simp] theorem commitMove_geValid (c : Pos) (s : State) : (commitMove c s).geValid = s.geValid := rfl
@[simp] theorem commitMove_cfg (c : Pos) (s : State) : (commitMove c s).cfg = s.cfg := rfl
@[simp] theorem commitMove_draws (c : Pos) (s : State) : (commitMove c s).draws = s.draws := rfl
@[simp] theorem commitMove_port (c : Pos) (s : State) : (commitMove c s).port = s.port := rfl
@[simp] theorem commitMove_pendingFrame (c : Pos) (s : State) :
    (commitMove c s).pendingFrame = s.pendingFrame := rfl
@[simp] theorem commitMove_results (c : Pos) (s : State) : (commitMove c s).results = s.results := rfl
@[simp] theorem commitMove_frames (c : Pos) (s : State) : (commitMove c s).frames = s.frames := rfl
@[simp] theorem commitMove_fresh (c : Pos) (s : State) : (commitMove c s).fresh = s.fresh := rfl

@[simp] theorem toggleFood_fbValid (s : State) : (toggleFood s).fbValid = s.fbValid := by
  unfold toggleFood; dsimp only; split <;> rfl
@[simp] theorem toggleFood_lines (s : State) : (toggleFood s).lines = s.lines := by
  unfold toggleFood; dsimp only; split <;> rfl
@[simp] theorem toggleFood_seg (s : State) : (toggleFood s).seg = s.seg := by
  unfold toggleFood; dsimp only; split <;> rfl
@[simp] theorem toggleFood_len (s : State) : (toggleFood s).len = s.len := by
  unfold toggleFood; dsimp only; split <;> rfl
@[simp] theorem toggleFood_dir (s : State) : (toggleFood s).dir = s.dir := by
  unfold toggleFood; dsimp only; split <;> rfl
@[simp] theorem toggleFood_pend (s : State) : (toggleFood s).pend = s.pend := by
  unfold toggleFood; dsimp only; split <;> rfl
@[simp] theorem toggleFood_food (s : State) : (toggleFood s).food = s.food := by
  unfold toggleFood; dsimp only; split <;> rfl
@[simp] theorem toggleFood_gstate (s : State) : (toggleFood s).gstate = s.gstate := by
  unfold toggleFood; dsimp only; split <;> rfl
@[simp] theorem toggleFood_geValid (s : State) : (toggleFood s).geValid = s.geValid := by
  unfold toggleFood; dsimp only; split <;> rfl
@[simp] theorem toggleFood_cfg (s : State) : (toggleFood s).cfg = s.cfg := by
  unfold toggleFood; dsimp only; split <;> rfl
@[simp] theorem toggleFood_draws (s : State) : (toggleFood s).draws = s.draws := by
  unfold toggleFood; dsimp only; split <;> rfl
@[simp] theorem toggleFood_port (s : State) : (toggleFood s).port = s.port := by
  unfold toggleFood; dsimp only; split <;> rfl
@[simp] theorem toggleFood_pendingFrame (s : State) : (toggleFood s).pendingFrame = s.pendingFrame := by
  unfold toggleFood; dsimp only; split <;> rfl
@[simp] theorem toggleFood_results (s : State) : (toggleFood s).results = s.results := by
  unfold toggleFood; dsimp only; split <;> rfl
@[simp] theorem toggleFood_frames (s : State) : (toggleFood s).frames = s.frames := by
  unfold toggleFood; dsimp only; split <;> rfl
@[simp] theorem toggleFood_fresh (s : State) : (toggleFood s).fresh = s.fresh := by
  unfold toggleFood; dsimp only; split <;> rfl
@[simp] theorem toggleFood_vis (s : State) : (toggleFood s).vis = !s.vis := by
  unfold toggleFood; dsimp only; split <;> rfl
@[simp] theorem toggleFood_fb (s : State) :
    (toggleFood s).fb = if headOf s ≠ s.food then fbSetAt s.fb s.food (!s.vis) else s.fb := by
  unfold toggleFood; dsimp only; split <;> rfl

end Sys2Proof.Machine
end

