-- ==== Sys2Proof/Laws/Framebuffer.lean ====
section
/-! SUPPORT. Pixels: what one write does to every pixel, that a framebuffer is its pixels, and the image of a snake. -/

namespace Sys2Proof.Machine

theorem columnMask_getLsbD (c : BitVec 3) (i : Nat) :
    (columnMask c).getLsbD i = decide (i = 7 - c.toNat) := by
  by_cases hi : i < 8
  · revert c; interval_cases i <;> decide
  · rw [BitVec.getLsbD_of_ge _ _ (by omega)]
    exact (decide_eq_false (by omega)).symm

/-- A bit of a row after one pixel write. -/
theorem row_write_getLsbD (row : Byte) (c : BitVec 3) (b : Bool) (i : Nat) (hi : i < 8) :
    ((row &&& ~~~columnMask c) ||| if b then columnMask c else 0).getLsbD i =
      if i = 7 - c.toNat then b else row.getLsbD i := by
  cases b <;> by_cases h : i = 7 - c.toNat <;>
    simp [BitVec.getLsbD_or, BitVec.getLsbD_and, BitVec.getLsbD_not, columnMask_getLsbD, h] <;> omega

/-- A write at a row and column changes that pixel alone (40_matrix_driver.md rule R114). -/
@[simp] theorem fbPixel_fbSet (fb : Framebuffer) (r c r' c' : BitVec 3) (b : Bool) :
    fbPixel (fbSet fb r c b) r' c' = if r' = r ∧ c' = c then b else fbPixel fb r' c' := by
  have hc := c.isLt
  have hc' := c'.isLt
  unfold fbPixel fbSet
  rw [Vector.getElem_set]
  by_cases hr : r.toNat = r'.toNat
  · have hrr : r' = r := (BitVec.eq_of_toNat_eq hr).symm
    subst hrr
    rw [if_pos rfl, row_write_getLsbD _ _ _ _ (by omega)]
    by_cases hcc : c' = c
    · simp [hcc]
    · have : c'.toNat ≠ c.toNat := fun h => hcc (BitVec.eq_of_toNat_eq h)
      rw [if_neg (by omega), if_neg (by simp [hcc])]
  · have hrr : r' ≠ r := fun h => hr (by rw [h])
    simp [hr, hrr]

@[simp] theorem fbPixelAt_fbSetAt (fb : Framebuffer) (p q : Pos) (b : Bool) :
    fbPixelAt (fbSetAt fb p b) q = if q = p then b else fbPixelAt fb q := by
  unfold fbPixelAt fbSetAt
  rw [fbPixel_fbSet]
  congr 1
  cases p; cases q
  simp [and_comm]

@[simp] theorem fbPixel_fbClear (r c : BitVec 3) : fbPixel fbClear r c = false := by
  simp [fbPixel, fbClear]

@[simp] theorem fbPixelAt_fbClear (p : Pos) : fbPixelAt fbClear p = false := fbPixel_fbClear _ _

/-- Two framebuffers with the same pixels are equal. -/
theorem framebuffer_ext {a b : Framebuffer} (h : ∀ r c, fbPixel a r c = fbPixel b r c) : a = b := by
  apply Vector.ext
  intro r hr
  apply BitVec.eq_of_getLsbD_eq
  intro i hi
  have := h (BitVec.ofNat 3 r) (BitVec.ofNat 3 (7 - i))
  simp only [fbPixel, BitVec.toNat_ofNat] at this
  have h1 : r % 2 ^ 3 = r := Nat.mod_eq_of_lt (by omega)
  have h2 : 7 - (7 - i) % 2 ^ 3 = i := by rw [Nat.mod_eq_of_lt (by omega)]; omega
  simpa only [h1, h2] using this

theorem fbPixelAt_paint (snake : List Pos) (fb : Framebuffer) (q : Pos) :
    fbPixelAt (snake.foldl (fun fb p => fbSetAt fb p true) fb) q = true ↔ q ∈ snake ∨ fbPixelAt fb q = true := by
  induction snake generalizing fb with
  | nil => simp
  | cons p rest ih =>
    rw [List.foldl_cons, ih]
    by_cases h : q = p <;> simp [h]

/-- The image of a snake and its food lights them and nothing else (42_game_state.md rule R152). -/
theorem fbPixelAt_imageOf (snake : List Pos) (food q : Pos) :
    fbPixelAt (imageOf snake food) q = true ↔ q ∈ snake ∨ q = food := by
  unfold imageOf
  rw [fbPixelAt_fbSetAt]
  by_cases h : q = food
  · simp [h]
  · rw [if_neg h, fbPixelAt_paint]
    simp [h]

end Sys2Proof.Machine
end

