-- ==== Sys2Proof/Laws/Snake.lean ====
section
/-! SUPPORT. The snake: the live segments after a construction and after each commit of a tick. -/

namespace Sys2Proof.Machine

/-- The grid has 64 cells: a list of distinct Positions is no longer (00_scope.md rule R8). -/
theorem length_le_of_nodup {l : List Pos} (h : l.Nodup) : l.length ≤ 64 := by
  let cell : Pos → Nat := fun p => p.x.toNat * 8 + p.y.toNat
  have inj : Function.Injective cell := by
    rintro ⟨a, b⟩ ⟨c, d⟩ e
    have e' : a.toNat * 8 + b.toNat = c.toNat * 8 + d.toNat := e
    have := a.isLt
    have := b.isLt
    have := c.isLt
    have := d.isLt
    congr <;> apply BitVec.eq_of_toNat_eq <;> omega
  have sub : l.map cell ⊆ List.range 64 := by
    intro n hn
    obtain ⟨p, _, rfl⟩ := List.mem_map.1 hn
    have := p.x.isLt
    have := p.y.isLt
    simp only [List.mem_range, cell]
    omega
  simpa using ((h.map inj).subperm sub).length_le

theorem body_length {s : State} (h : s.len.toNat ≤ 64) : (body s).length = s.len.toNat := by
  simp [body]; omega

theorem body_getElem (s : State) (i : Nat) (h : i < (body s).length) :
    (body s)[i] = s.seg[i]'(by simp [body] at h; omega) := by
  simp [body]

/-- The live segments after `c` is prepended: `c`, then the first of the old ones (42_game_state.md rule R161). -/
theorem take_pushHead (c : Pos) (n : Nat) (seg : SegArray) (h : n + 1 ≤ 64) :
    (pushHead c (n + 1) seg).toList.take (n + 1) = c :: seg.toList.take n := by
  apply List.ext_getElem
  · simp; omega
  · intro i h1 h2
    have hi : i < n + 1 := by simp at h1; omega
    rcases i with _ | i
    · simp [pushHead]
    · simp [pushHead]; omega

theorem body_commitGrow {s : State} (c p : Pos) (h : s.len.toNat ≤ 63) :
    body (commitGrow c p s) = c :: body s := by
  have hl : (s.len + 1).toNat = s.len.toNat + 1 := by
    rw [BitVec.toNat_add]; exact Nat.mod_eq_of_lt (by simp; omega)
  simp only [body, commitGrow_seg, commitGrow_len, hl]
  exact take_pushHead c s.len.toNat s.seg (by omega)

theorem body_commitMove {s : State} (c : Pos) (h1 : 1 ≤ s.len.toNat) (h2 : s.len.toNat ≤ 64) :
    body (commitMove c s) = c :: (body s).dropLast := by
  obtain ⟨n, hn⟩ : ∃ n, s.len.toNat = n + 1 := ⟨s.len.toNat - 1, by omega⟩
  simp only [body, commitMove_seg, commitMove_len, hn]
  rw [take_pushHead c n s.seg (by omega), List.dropLast_eq_take, List.length_take, Vector.length_toList, List.take_take]
  congr 2; omega

theorem headOf_eq {s : State} (h1 : 1 ≤ s.len.toNat) (h2 : s.len.toNat ≤ 64) :
    (body s).head? = some (headOf s) := by
  rw [List.head?_eq_getElem?, List.getElem?_eq_getElem (by rw [body_length h2]; omega), body_getElem]
  rfl

theorem tailOf_eq {s : State} (h1 : 1 ≤ s.len.toNat) (h2 : s.len.toNat ≤ 64) :
    (body s).getLast? = some (tailOf s) := by
  have hl := body_length h2
  rw [List.getLast?_eq_getElem?, List.getElem?_eq_getElem (by omega), body_getElem]
  have : ((s.len - 1).setWidth 6).toNat = (body s).length - 1 := by
    rw [hl, BitVec.toNat_setWidth, BitVec.toNat_sub_of_le (by simpa [BitVec.le_def] using h1)]
    simp; omega
  simp only [tailOf, segAt, this]

theorem body_eq_dropLast_tailOf {s : State} (h1 : 1 ≤ s.len.toNat) (h2 : s.len.toNat ≤ 64) :
    body s = (body s).dropLast ++ [tailOf s] := by
  have hne : body s ≠ [] := fun h => by have := body_length h2; simp [h] at this; omega
  have ht := tailOf_eq h1 h2
  rw [List.getLast?_eq_some_getLast hne, Option.some.injEq] at ht
  rw [← ht, List.dropLast_append_getLast]

theorem body_construct {s : State} (h : s.cfg.initLen.toNat ≤ 64) : body (construct s) = initBody s.cfg := by
  apply List.ext_getElem
  · simp [body, initBody]; omega
  · intro i h1 h2
    have hi : i < s.cfg.initLen.toNat := by simpa [initBody] using h2
    simp [body, initBody, initSeg, hi]

/-- What a construction leaves, in the claims' terms (42_game_state.md rules R151, R152). -/
theorem initialGame_construct {s : State} (h : s.cfg.initLen.toNat ≤ 64) : InitialGame (construct s) where
  body := body_construct h
  len := rfl
  dir := rfl
  pend := rfl
  food := rfl
  vis := rfl
  gstate := rfl
  geValid := rfl
  fbValid := rfl
  image _ := fbPixelAt_imageOf _ _ _

end Sys2Proof.Machine
end

