-- ==== Sys2Proof/Laws/Wire.lean ====
section
/-! SUPPORT. The wire: the waveform of one frame, and what a sequence of frames leaves on the lines. -/

namespace Sys2Proof.Machine

open Host (Outcome)

theorem runEvents_append (l : Lines) (a b : List LineEvent) :
    runEvents l (a ++ b) = runEvents (runEvents l a) b := List.foldl_append

theorem frameEvents_length (w : FrameWord) : (frameEvents w).length = 50 := rfl

/-- A frame leaves the lines idle, DIN at its last bit, whatever they were (10_state.md rule R25). -/
@[simp] theorem runEvents_frameEvents (l : Lines) (w : FrameWord) :
    runEvents l (frameEvents w) = ⟨true, false, w.getLsbD 0⟩ := rfl

@[simp] theorem runEvents_writeEvents (l : Lines) (f : Frame) :
    runEvents l (writeEvents f) = ⟨true, false, f.data.getLsbD 0⟩ := by
  rw [writeEvents, runEvents_frameEvents, frameWord, BitVec.getLsbD_append]
  simp

theorem sent_emitFrames (fs : List Frame) (s : State) : Sent fs s (emitFrames fs s) :=
  ⟨by simp only [emitFrames], by simp only [emitFrames]⟩

/-- Several frames are one frame after another (40_matrix_driver.md rule R113). -/
theorem emitFrames_append (fs gs : List Frame) (s : State) :
    emitFrames (fs ++ gs) s = emitFrames gs (emitFrames fs s) := by
  simp [emitFrames, runEvents_append]

/-- A flush sends the eight row frames of the framebuffer (40_matrix_driver.md rule R114). -/
theorem sent_emitRows (s : State) : Sent (rowFrames s.fb) s (emitRows s) := sent_emitFrames _ s

@[simp] theorem emitRows_frames (s : State) : (emitRows s).frames = s.frames ++ rowFrames s.fb :=
  (sent_emitRows s).frames

@[simp] theorem emitRows_lines (s : State) :
    (emitRows s).lines = ⟨true, false, s.fb[7].getLsbD 0⟩ := by
  rw [(sent_emitRows s).lines]
  simp only [rowFrames, List.flatMap_cons, List.flatMap_nil, List.append_nil, runEvents_append, runEvents_writeEvents]

theorem Sent.trans {fs gs : List Frame} {s t u : State} (h : Sent fs s t) (k : Sent gs t u) : Sent (fs ++ gs) s u :=
  ⟨by rw [k.frames, h.frames, List.append_assoc], by rw [k.lines, h.lines, List.flatMap_append, runEvents_append]⟩

/-- The waveform of more frames, from the lines the trace so far left. -/
theorem LinesFollowTrace.sent {fs : List Frame} {s t : State} (h : LinesFollowTrace s) (k : Sent fs s t) :
    LinesFollowTrace t := by
  unfold LinesFollowTrace at *
  rw [k.lines, h]
  simp only [lineTrace, k.frames, List.flatMap_append, runEvents_append]

end Sys2Proof.Machine
end

