-- ==== Sys2Proof/Laws/Ops.lean ====
section
/-! SUPPORT. What each shared operation can do, said once: sequencing, the flush, the end of a command, the restart, a
unit step, food placement, and the validity of a configuration. -/

namespace Sys2Proof.Machine

open Host (Outcome)

@[simp] theorem andThen_next (s : State) (f : State → Outcome State Fault Refusal) : andThen (.next s) f = f s := rfl

@[simp] theorem andThen_fault (r : Fault) (f : State → Outcome State Fault Refusal) :
    andThen (.fault r) f = .fault r := rfl

@[simp] theorem andThen_refused (r : Refusal) (f : State → Outcome State Fault Refusal) :
    andThen (.refused r) f = .refused r := rfl

theorem flush_of_valid {s : State} (h : s.fbValid = true) : flush s = .next (emitRows s) := by simp [flush, h]

theorem flush_of_invalid {s : State} (h : s.fbValid = false) : flush s = .fault .framebufferUnwritten := by
  simp [flush, h]

/-- The state a flush and the end of a command leave. -/
def flushed (res : Word) (s : State) : State :=
  { emitRows s with results := s.results ++ [res], draws := [] }

theorem flushAndFinish_of_valid {s : State} (res : Word) (h : s.fbValid = true) :
    flushAndFinish res s = .next (flushed res s) := by
  rw [flushAndFinish, flush_of_valid h, andThen_next, finish, emitRows_results]
  rfl

theorem flushAndFinish_of_invalid {s : State} (res : Word) (h : s.fbValid = false) :
    flushAndFinish res s = .fault .framebufferUnwritten := by
  rw [flushAndFinish, flush_of_invalid h, andThen_fault]

/-- A flush and the end of a command answer next exactly when the framebuffer is written. -/
theorem flushAndFinish_eq_next {s t : State} {res : Word} (h : flushAndFinish res s = .next t) :
    s.fbValid = true ∧ t = flushed res s := by
  cases hv : s.fbValid
  · rw [flushAndFinish_of_invalid res hv] at h; cases h
  · rw [flushAndFinish_of_valid res hv] at h; cases h; exact ⟨rfl, rfl⟩

@[simp] theorem flushed_fb (res : Word) (s : State) : (flushed res s).fb = s.fb := by
  simp only [flushed, emitRows_fb]
@[simp] theorem flushed_fbValid (res : Word) (s : State) : (flushed res s).fbValid = s.fbValid := by
  simp only [flushed, emitRows_fbValid]
@[simp] theorem flushed_seg (res : Word) (s : State) : (flushed res s).seg = s.seg := by
  simp only [flushed, emitRows_seg]
@[simp] theorem flushed_len (res : Word) (s : State) : (flushed res s).len = s.len := by
  simp only [flushed, emitRows_len]
@[simp] theorem flushed_dir (res : Word) (s : State) : (flushed res s).dir = s.dir := by
  simp only [flushed, emitRows_dir]
@[simp] theorem flushed_pend (res : Word) (s : State) : (flushed res s).pend = s.pend := by
  simp only [flushed, emitRows_pend]
@[simp] theorem flushed_food (res : Word) (s : State) : (flushed res s).food = s.food := by
  simp only [flushed, emitRows_food]
@[simp] theorem flushed_vis (res : Word) (s : State) : (flushed res s).vis = s.vis := by
  simp only [flushed, emitRows_vis]
@[simp] theorem flushed_gstate (res : Word) (s : State) : (flushed res s).gstate = s.gstate := by
  simp only [flushed, emitRows_gstate]
@[simp] theorem flushed_geValid (res : Word) (s : State) : (flushed res s).geValid = s.geValid := by
  simp only [flushed, emitRows_geValid]
@[simp] theorem flushed_cfg (res : Word) (s : State) : (flushed res s).cfg = s.cfg := by
  simp only [flushed, emitRows_cfg]
@[simp] theorem flushed_port (res : Word) (s : State) : (flushed res s).port = s.port := by
  simp only [flushed, emitRows_port]
@[simp] theorem flushed_pendingFrame (res : Word) (s : State) : (flushed res s).pendingFrame = s.pendingFrame := by
  simp only [flushed, emitRows_pendingFrame]
@[simp] theorem flushed_fresh (res : Word) (s : State) : (flushed res s).fresh = s.fresh := by
  simp only [flushed, emitRows_fresh]
@[simp] theorem flushed_draws (res : Word) (s : State) : (flushed res s).draws = [] := rfl
@[simp] theorem flushed_results (res : Word) (s : State) : (flushed res s).results = s.results ++ [res] := rfl
@[simp] theorem flushed_frames (res : Word) (s : State) : (flushed res s).frames = s.frames ++ rowFrames s.fb := by
  simp only [flushed, emitRows_frames]
@[simp] theorem flushed_lines (res : Word) (s : State) :
    (flushed res s).lines = ⟨true, false, s.fb[7].getLsbD 0⟩ := by
  simp only [flushed, emitRows_lines]

@[simp] theorem body_flushed (res : Word) (s : State) : body (flushed res s) = body s := by
  simp only [body, flushed_seg, flushed_len]

theorem sent_flushed (res : Word) (s : State) : Sent (rowFrames s.fb) s (flushed res s) :=
  ⟨flushed_frames res s, by simp only [flushed]; exact (sent_emitRows s).lines⟩

/-- The state a restart leaves (60_exceptions.md rule R205). -/
def restarted (cause : Cause) (s : State) : State := flushed (causeCode cause) (construct s)

/-- A restart always completes (60_exceptions.md rule R208). -/
theorem restart_eq (cause : Cause) (s : State) : restart cause s = .next (restarted cause s) := by
  have h : construct (enterRestart s) = construct s := rfl
  rw [restart, h, flush_of_valid rfl, andThen_next, restarted, flushed]
  simp only [finish, leaveRestart, emitRows, emitFrames, construct]

theorem inGrid_iff {x y : Int} : inGrid x y = true ↔ 0 ≤ x ∧ x ≤ 7 ∧ 0 ≤ y ∧ y ≤ 7 := by simp [inGrid]

/-- A unit step stays on the grid at the cell whose coordinates are the stepped ones, or leaves it. -/
theorem neighbour_eq_some {d : Dir} {p q : Pos} (h : neighbour d p = some q) :
    (q.x.toNat : Int) = p.x.toNat + dx d ∧ (q.y.toNat : Int) = p.y.toNat + dy d := by
  revert h
  cases p with | mk x y => cases q with | mk u v => cases d <;> revert x y u v <;> decide

theorem neighbour_eq_none {d : Dir} {p : Pos} :
    neighbour d p = none ↔ inGrid (p.x.toNat + dx d) (p.y.toNat + dy d) = false := by
  unfold neighbour
  dsimp only
  split <;> simp_all

/-- A placement accepts the first draw outside the excluded cells, within the attempts (42_game_state.md rule R162). -/
theorem place_eq_accepted {excluded draws : List Pos} {n : Nat} {p : Pos} (h : place excluded n draws = .accepted p) :
    p ∉ excluded ∧ ∃ rejected rest, draws = rejected ++ p :: rest ∧ rejected.length < n ∧
      ∀ q ∈ rejected, q ∈ excluded := by
  induction n generalizing draws with
  | zero => cases h
  | succ n ih =>
    rcases draws with _ | ⟨q, rest⟩
    · cases h
    · rw [place] at h
      split at h
      · rename_i hq
        obtain ⟨hp, rejected, tail, rfl, hlt, hall⟩ := ih h
        exact ⟨hp, q :: rejected, tail, rfl, by simp; omega, by simpa using ⟨by simpa using hq, hall⟩⟩
      · rename_i hq
        cases h
        exact ⟨by simpa using hq, [], rest, rfl, by simp, by simp⟩

/-- The conditions of 00_scope.md rule R10, spelled out. -/
theorem configValid_iff {cfg : Config} : configValid cfg = true ↔
    cfg.deadLo ≤ cfg.deadHi ∧ (1 ≤ cfg.initLen.toNat ∧ cfg.initLen.toNat ≤ 64) ∧
      (∀ i < cfg.initLen.toNat, inGrid (initX cfg i) (initY cfg i) = true) ∧
      (initBody cfg).Nodup ∧ cfg.initFood ∉ initBody cfg := by
  simp only [configValid, Bool.and_eq_true, decide_eq_true_eq, List.all_eq_true, List.mem_range,
    Bool.not_eq_true', List.contains_eq_mem, decide_eq_false_iff_not, and_assoc]

end Sys2Proof.Machine
end

