-- ==== Sys2Proof/Laws/Exec.lean ====
section
/-! SUPPORT. What each command can do when it answers a next state, said once; claims cite these and do not unfold the
meanings. -/

namespace Sys2Proof.Machine

open Host (Outcome)

/-- The five ways a tick ends in a next state (42_game_state.md rule R171). -/
theorem execGeTick_cases {s t : State} (h : execGeTick s = .next t) :
    s.geValid = true ∧
    ((neighbour s.pend (headOf s) = none ∧ t = restarted .outOfBounds s) ∨
     (∃ p, neighbour s.pend (headOf s) = some s.food ∧
        place (s.food :: body s) maxAttempts s.draws = .accepted p ∧ s.fbValid = true ∧
        t = flushed codeGrew (commitGrow s.food p s)) ∨
     (neighbour s.pend (headOf s) = some s.food ∧
        place (s.food :: body s) maxAttempts s.draws = .exhausted ∧ t = restarted .foodPlacementExhausted s) ∨
     (∃ c, neighbour s.pend (headOf s) = some c ∧ c ≠ s.food ∧ c ∈ body s ∧ t = restarted .selfCollision s) ∨
     (∃ c, neighbour s.pend (headOf s) = some c ∧ c ≠ s.food ∧ c ∉ body s ∧ s.fbValid = true ∧
        t = flushed codeMoved (commitMove c s))) := by
  unfold execGeTick at h
  split at h
  · rename_i hv
    refine ⟨hv, ?_⟩
    split at h
    · rename_i hn
      rw [restart_eq] at h; cases h
      exact .inl ⟨hn, rfl⟩
    · rename_i c hc
      split at h
      · rename_i hf
        subst hf
        unfold tickGrow at h
        split at h
        · rename_i p hp
          obtain ⟨hfv, rfl⟩ := flushAndFinish_eq_next h
          exact .inr (.inl ⟨p, hc, hp, hfv, rfl⟩)
        · rename_i hp
          rw [restart_eq] at h; cases h
          exact .inr (.inr (.inl ⟨hc, hp, rfl⟩))
        · cases h
      · rename_i hf
        unfold tickMove at h
        split at h
        · rename_i hm
          rw [restart_eq] at h; cases h
          exact .inr (.inr (.inr (.inl ⟨c, hc, hf, by simpa using hm, rfl⟩)))
        · rename_i hm
          obtain ⟨hfv, rfl⟩ := flushAndFinish_eq_next h
          exact .inr (.inr (.inr (.inr ⟨c, hc, hf, by simpa using hm, hfv, rfl⟩)))
  · cases h

theorem execGeSteer_eq_next {h v : BitVec 12} {s t : State} (e : execGeSteer h v s = .next t) :
    s.geValid = true ∧ t = { s with
      pend := (steerDir s.cfg s.dir h v).getD s.pend, results := s.results ++ [0], draws := [] } := by
  unfold execGeSteer at e
  split at e
  · rename_i hv; cases e; exact ⟨hv, rfl⟩
  · cases e

theorem execGeBlink_eq_next {s t : State} (h : execGeBlink s = .next t) :
    s.geValid = true ∧ s.fbValid = true ∧ t = flushed 0 (toggleFood s) := by
  unfold execGeBlink at h
  split at h
  · rename_i hv
    obtain ⟨hf, rfl⟩ := flushAndFinish_eq_next h
    exact ⟨hv, by simpa using hf, rfl⟩
  · cases h

/-- A query answers its value and changes nothing else (20_memory.md rule R69). -/
theorem execGeQuery_eq_next {sel : Byte} {s t : State} (h : execGeQuery sel s = .next t) :
    ∃ q, selectorOf sel = some q ∧
      t = { s with results := s.results ++ [(queryValue s q).setWidth 32], draws := [] } := by
  unfold execGeQuery at h
  split at h
  · cases h
  · rename_i r hr
    split at h
    · cases h; exact ⟨_, hr, rfl⟩
    · cases h
  · rename_i q _ hq
    split at h
    · cases h; exact ⟨q, hq, rfl⟩
    · cases h

theorem execMdGetpix_eq_next {row col : BitVec 3} {s t : State} (h : execMdGetpix row col s = .next t) :
    s.fbValid = true ∧ t = { s with
      results := s.results ++ [(BitVec.ofBool (fbPixel s.fb row col)).setWidth 32], draws := [] } := by
  unfold execMdGetpix at h
  split at h
  · rename_i hv; cases h; exact ⟨hv, rfl⟩
  · cases h

/-- MD.INIT always completes. -/
theorem execMdInit_eq (s : State) :
    execMdInit s = .next (flushed 0 { emitControlFrames s with fb := fbClear, fbValid := true }) :=
  flushAndFinish_of_valid 0 rfl

/-- GE.RESET always completes. -/
theorem execGeReset_eq (s : State) : execGeReset s = .next (flushed 0 (construct s)) :=
  flushAndFinish_of_valid 0 rfl

/-- What each instruction can do when it answers a next state: one constructor an instruction, one for the thirteen
frames. A tick's five ways are `execGeTick_cases`. -/
inductive Effect (s : State) : Instr → State → Prop where
  | mdInit : Effect s .mdInit (flushed 0 { emitControlFrames s with fb := fbClear, fbValid := true })
  | mdSetpix (row col : BitVec 3) (on : Bool) :
      Effect s (.mdSetpix row col on) { setPixel row col on s with results := s.results ++ [0], draws := [] }
  | mdGetpix (row col : BitVec 3) (hv : s.fbValid = true) :
      Effect s (.mdGetpix row col)
        { s with results := s.results ++ [(BitVec.ofBool (fbPixel s.fb row col)).setWidth 32], draws := [] }
  | mdSetint (level : Byte) :
      Effect s (.mdSetint level)
        { emitFrame 0x0A (level &&& 0x0F) s with results := s.results ++ [0], draws := [] }
  | mdShdn (sd : Bool) :
      Effect s (.mdShdn sd)
        { emitFrame 0x0C (if sd then 0x00 else 0x01) s with results := s.results ++ [0], draws := [] }
  | mdFlush (hv : s.fbValid = true) : Effect s .mdFlush (flushed 0 s)
  | geReset : Effect s .geReset (flushed 0 (construct s))
  | geSteer (h v : BitVec 12) (hg : s.geValid = true) :
      Effect s (.geSteer h v)
        { s with pend := (steerDir s.cfg s.dir h v).getD s.pend, results := s.results ++ [0], draws := [] }
  | geTick (t : State) (ht : execGeTick s = .next t) : Effect s .geTick t
  | geBlink (hg : s.geValid = true) (hv : s.fbValid = true) : Effect s .geBlink (flushed 0 (toggleFood s))
  | geQuery (sel : Byte) (q : Selector) (hq : selectorOf sel = some q) :
      Effect s (.geQuery sel) { s with results := s.results ++ [(queryValue s q).setWidth 32], draws := [] }
  | frame (i : Instr) (addr data : Byte) (hi : encode i = .frame (frameWord addr data)) :
      Effect s i (emitFrame addr data s)

/-- The inversion of `exec`. -/
theorem exec_effect {i : Instr} {s t : State} (h : exec i s = .next t) : Effect s i t := by
  cases i with
  | mdInit =>
    rw [exec, execMdInit_eq] at h; cases h
    exact .mdInit
  | mdSetpix row col on =>
    rw [exec, execMdSetpix, finish, setPixel_results] at h; cases h
    exact .mdSetpix row col on
  | mdGetpix row col =>
    obtain ⟨hv, rfl⟩ := execMdGetpix_eq_next h
    exact .mdGetpix row col hv
  | mdSetint level =>
    rw [exec, execMdSetint, finish, emitFrame_results] at h; cases h
    exact .mdSetint level
  | mdShdn sd =>
    rw [exec, execMdShdn, finish, emitFrame_results] at h; cases h
    exact .mdShdn sd
  | mdFlush =>
    obtain ⟨hv, rfl⟩ := flushAndFinish_eq_next h
    exact .mdFlush hv
  | geReset =>
    rw [exec, execGeReset_eq] at h; cases h
    exact .geReset
  | geSteer x y =>
    obtain ⟨hg, rfl⟩ := execGeSteer_eq_next h
    exact .geSteer x y hg
  | geTick => exact .geTick t h
  | geBlink =>
    obtain ⟨hg, hv, rfl⟩ := execGeBlink_eq_next h
    exact .geBlink hg hv
  | geQuery sel =>
    obtain ⟨q, hq, rfl⟩ := execGeQuery_eq_next h
    exact .geQuery sel q hq
  | _ data => cases h; exact .frame _ _ data rfl

/-- A frame instruction always completes with one register write. -/
theorem exec_frame {i : Instr} {w : FrameWord} (h : encode i = .frame w) (s : State) :
    ∃ addr data, w = frameWord addr data ∧ exec i s = .next (emitFrame addr data s) := by
  cases i <;> first | (cases h; done) | (cases h; exact ⟨_, _, rfl, rfl⟩)

/-- A tick that completes sends the eight rows of the image it leaves (42_game_state.md rule R164). -/
theorem execGeTick_sent {s t : State} (h : execGeTick s = .next t) : Sent (rowFrames t.fb) s t := by
  have hr (cause : Cause) : Sent (rowFrames (restarted cause s).fb) s (restarted cause s) := by
    have k := sent_flushed (causeCode cause) (construct s)
    exact ⟨by simp [restarted], by rw [restarted, k.lines]; simp⟩
  obtain ⟨_, hc⟩ := execGeTick_cases h
  rcases hc with ⟨_, rfl⟩ | ⟨p, _, _, _, rfl⟩ | ⟨_, _, rfl⟩ | ⟨c, _, _, _, rfl⟩ | ⟨c, _, _, _, _, rfl⟩
  · exact hr _
  · have k := sent_flushed codeGrew (commitGrow s.food p s)
    exact ⟨by simp, by rw [k.lines]; simp⟩
  · exact hr _
  · exact hr _
  · have k := sent_flushed codeMoved (commitMove c s)
    exact ⟨by simp, by rw [k.lines]; simp⟩

/-- A step with a word at the front: an invalid configuration stops it, else the word is decoded and run. -/
theorem step_of_fetch {s t : State} {w : InWord} (hc : configValid s.cfg = true) (hf : fetch s = some (w, t)) :
    step s = runWord w t := by
  unfold step
  rw [if_pos hc, hf]

theorem runWord_of_ok {w : InWord} {i : Instr} (s : State) (h : decode w = .ok i) : runWord w s = exec i s := by
  rw [runWord, h]

theorem runWord_of_error {w : InWord} {r : Reject} (s : State) (h : decode w = .error r) :
    runWord w s = .refused (refusalOf r) := by
  rw [runWord, h]

/-- The ways a step answers a next state: it waits, or it runs a decoded instruction. -/
theorem step_cases {s s' : State} (h : step s = .next s') :
    configValid s.cfg = true ∧
      ((fetch s = none ∧ s' = s) ∨ ∃ w t i, fetch s = some (w, t) ∧ decode w = .ok i ∧ exec i t = .next s') := by
  unfold step at h
  split at h
  · rename_i hc
    refine ⟨hc, ?_⟩
    split at h
    · rename_i hf; cases h; exact .inl ⟨hf, rfl⟩
    · rename_i w t hf
      cases hi : decode w with
      | ok i => exact .inr ⟨w, t, i, hf, hi, runWord_of_ok t hi ▸ h⟩
      | error r => rw [runWord_of_error t hi] at h; cases h
  · cases h

/-- What taking the next word does. -/
theorem fetch_cases {s t : State} {w : InWord} (h : fetch s = some (w, t)) :
    (∃ f, s.pendingFrame = some f ∧ w = .frame f ∧ t = { s with pendingFrame := none }) ∨
    (s.pendingFrame = none ∧ ∃ c rest, s.port = c :: rest ∧ w = .command c.word ∧
      t = { s with port := rest, draws := c.draws }) := by
  unfold fetch at h
  split at h
  · rename_i f hf; cases h; exact .inl ⟨f, hf, rfl, rfl⟩
  · rename_i hn
    split at h
    · cases h
    · rename_i c rest hp; cases h; exact .inr ⟨hn, c, rest, hp, rfl, rfl⟩

end Sys2Proof.Machine
end

