-- ==== Sys2Proof/Laws/PerInstr.lean ====
section
/-! SUPPORT. Family TableRow: the word of an instruction has the fixed bits of its row of spec/opcode_table.json. -/

namespace Sys2Proof.Laws.TableRow

/-- A row of spec/opcode_table.json: which bits of its word are fixed, and to what. -/
inductive Row where
  | command (mask value : Word)
  | frame (mask value : FrameWord)
deriving DecidableEq, Repr

/-- The word is in the row's encoding and its fixed bits have the row's values. -/
def Row.Matches : Row → InWord → Prop
  | .command mask value, .command c => c &&& mask = value
  | .frame mask value, .frame w => w &&& mask = value
  | .command _ _, .frame _ => False
  | .frame _ _, .command _ => False

/-- The `mask` and `match` of each row of spec/opcode_table.json. -/
def rowOf : Instr → Row
  | .mdInit => .command 0xFFFFFFFF 0x10000000
  | .mdSetpix _ _ _ => .command 0xFFFFF88E 0x20000000
  | .mdGetpix _ _ => .command 0xFFFFF88F 0x30000000
  | .mdSetint _ => .command 0xFFFFFF00 0x40000000
  | .mdShdn _ => .command 0xFFFFFFFE 0x50000000
  | .mdFlush => .command 0xFFFFFFFF 0x60000000
  | .geReset => .command 0xFFFFFFFF 0x80000000
  | .geSteer _ _ => .command 0xFF000000 0x90000000
  | .geTick => .command 0xFFFFFFFF 0xA0000000
  | .geBlink => .command 0xFFFFFFFF 0xB0000000
  | .geQuery _ => .command 0xFFFFFF00 0xC0000000
  | .frameRow0 _ => .frame 0xFF00 0x0100
  | .frameRow1 _ => .frame 0xFF00 0x0200
  | .frameRow2 _ => .frame 0xFF00 0x0300
  | .frameRow3 _ => .frame 0xFF00 0x0400
  | .frameRow4 _ => .frame 0xFF00 0x0500
  | .frameRow5 _ => .frame 0xFF00 0x0600
  | .frameRow6 _ => .frame 0xFF00 0x0700
  | .frameRow7 _ => .frame 0xFF00 0x0800
  | .frameDecode _ => .frame 0xFF00 0x0900
  | .frameIntensity _ => .frame 0xFF00 0x0A00
  | .frameScanlimit _ => .frame 0xFF00 0x0B00
  | .frameShutdown _ => .frame 0xFF00 0x0C00
  | .frameDisptest _ => .frame 0xFF00 0x0F00

/-- The encoder keeps to the instruction's row. -/
def Statement (i : Instr) : Prop := (rowOf i).Matches (encode i)

theorem mdInit : Statement .mdInit := by show _ &&& _ = _; decide

theorem mdSetpix (row col : BitVec 3) (on : Bool) : Statement (.mdSetpix row col on) := by
  show _ &&& _ = _; revert row col on; decide

theorem mdGetpix (row col : BitVec 3) : Statement (.mdGetpix row col) := by
  show _ &&& _ = _; revert row col; decide

theorem mdSetint (level : Byte) : Statement (.mdSetint level) := by
  show _ &&& _ = _; revert level; decide

theorem mdShdn (sd : Bool) : Statement (.mdShdn sd) := by
  show _ &&& _ = _; revert sd; decide

theorem mdFlush : Statement .mdFlush := by show _ &&& _ = _; decide

theorem geReset : Statement .geReset := by show _ &&& _ = _; decide

theorem geSteer (h v : BitVec 12) : Statement (.geSteer h v) := by
  apply BitVec.eq_of_getLsbD_eq
  intro j hj
  rw [BitVec.getLsbD_and, wordS_getLsbD]
  split_ifs with h1 h2 h3
  · interval_cases j <;> exact Bool.and_false _
  · interval_cases j <;> exact Bool.and_false _
  · interval_cases j <;> rfl
  · interval_cases j <;> rfl

theorem geTick : Statement .geTick := by show _ &&& _ = _; decide

theorem geBlink : Statement .geBlink := by show _ &&& _ = _; decide

theorem geQuery (sel : Byte) : Statement (.geQuery sel) := by
  show _ &&& _ = _; revert sel; decide

theorem frameRow0 (data : Byte) : Statement (.frameRow0 data) := by
  show _ &&& _ = _; revert data; decide

theorem frameRow1 (data : Byte) : Statement (.frameRow1 data) := by
  show _ &&& _ = _; revert data; decide

theorem frameRow2 (data : Byte) : Statement (.frameRow2 data) := by
  show _ &&& _ = _; revert data; decide

theorem frameRow3 (data : Byte) : Statement (.frameRow3 data) := by
  show _ &&& _ = _; revert data; decide

theorem frameRow4 (data : Byte) : Statement (.frameRow4 data) := by
  show _ &&& _ = _; revert data; decide

theorem frameRow5 (data : Byte) : Statement (.frameRow5 data) := by
  show _ &&& _ = _; revert data; decide

theorem frameRow6 (data : Byte) : Statement (.frameRow6 data) := by
  show _ &&& _ = _; revert data; decide

theorem frameRow7 (data : Byte) : Statement (.frameRow7 data) := by
  show _ &&& _ = _; revert data; decide

theorem frameDecode (data : Byte) : Statement (.frameDecode data) := by
  show _ &&& _ = _; revert data; decide

theorem frameIntensity (data : Byte) : Statement (.frameIntensity data) := by
  show _ &&& _ = _; revert data; decide

theorem frameScanlimit (data : Byte) : Statement (.frameScanlimit data) := by
  show _ &&& _ = _; revert data; decide

theorem frameShutdown (data : Byte) : Statement (.frameShutdown data) := by
  show _ &&& _ = _; revert data; decide

theorem frameDisptest (data : Byte) : Statement (.frameDisptest data) := by
  show _ &&& _ = _; revert data; decide

end Sys2Proof.Laws.TableRow
end

