-- ==== Sys2Proof/Tests/Slice0.lean ====
section
/-! SUPPORT. The model's own tests: words and results written out from 30_encoding.md and 95_test_vectors.md, and a
witness for every statement that has hypotheses. -/

namespace Sys2Proof.Tests

open Sys2Proof.Machine
open Host (Outcome)

/-! ### Helpers -/

/-- The next state, if there is one. -/
def after : Outcome State Fault Refusal → Option State
  | .next s => some s
  | .fault _ => none
  | .refused _ => none

/-- The fault, if there is one. -/
def faultOf : Outcome State Fault Refusal → Option Fault
  | .next _ => none
  | .fault r => some r
  | .refused _ => none

/-- The refusal, if there is one. -/
def refusalIn : Outcome State Fault Refusal → Option Refusal
  | .next _ => none
  | .fault _ => none
  | .refused r => some r

/-- What a test reads of the next state. -/
def view {β : Type} (f : State → β) (o : Outcome State Fault Refusal) : Option β := (after o).map f

theorem exists_of_view {β : Type} {f : State → β} {o : Outcome State Fault Refusal} {b : β}
    (h : view f o = some b) : ∃ t, o = .next t ∧ f t = b := by
  cases o with
  | next t => exact ⟨t, rfl, by simpa [view, after] using h⟩
  | fault r => cases h
  | refused r => cases h

/-- `s` with one command issued. -/
def issued (c : Word) (draws : List Pos) (s : State) : State := { s with port := [⟨c, draws⟩] }

/-- One command run as one step. -/
def run (c : Word) (draws : List Pos) (s : State) : Outcome State Fault Refusal := step (issued c draws s)

/-- Power-on reset with a configuration. -/
def on (cfg : Config) : State := { State.reset with cfg := cfg }

/-- A game in progress: its snake, directions, food, phase and picture. -/
def game (cfg : Config) (snake : List Pos) (dir pend : Dir) (food : Pos) (vis : Bool) (fb : Framebuffer) : State :=
  { on cfg with
    seg := Vector.ofFn fun i => snake.getD i.val ⟨0, 0⟩
    len := BitVec.ofNat 7 snake.length
    dir := dir
    pend := pend
    food := food
    vis := vis
    fb := fb
    fbValid := true
    geValid := true }

/-- The configurations of 95_test_vectors.md. -/
def cfg1 : Config := { cfgAtReset with initFood := ⟨4, 1⟩ }
def cfg2 : Config := { cfgAtReset with intensity := 15, initHead := ⟨4, 3⟩, initLen := 5, initFood := ⟨0, 7⟩ }
def cfg3 : Config := { cfgAtReset with initLen := 4, initFood := ⟨7, 7⟩ }
def cfg4 : Config := { cfgAtReset with initFood := ⟨7, 7⟩ }
def cfg5 : Config :=
  { cfgAtReset with initHead := ⟨0, 0⟩, initLen := 1, initDir := .left, initFood := ⟨7, 7⟩ }

/-- The initial states of CFG0, CFG1 and CFG5, and the state of scenario D, from 95_test_vectors.md. -/
def game0 : State :=
  game cfgAtReset [⟨3, 1⟩, ⟨2, 1⟩, ⟨1, 1⟩] .right .right ⟨5, 5⟩ true #v[0, 0x70, 0, 0, 0, 0x04, 0, 0]
def game1 : State :=
  game cfg1 [⟨3, 1⟩, ⟨2, 1⟩, ⟨1, 1⟩] .right .right ⟨4, 1⟩ true #v[0, 0x78, 0, 0, 0, 0, 0, 0]
def game5 (pend : Dir) : State := game cfg5 [⟨0, 0⟩] .left pend ⟨7, 7⟩ true #v[0x80, 0, 0, 0, 0, 0, 0, 0x01]
def gameAtWall : State :=
  game cfgAtReset [⟨7, 1⟩, ⟨6, 1⟩, ⟨5, 1⟩] .right .right ⟨5, 5⟩ true #v[0, 0x07, 0, 0, 0, 0x04, 0, 0]

/-- The state before step 6 of program P5: the candidate is the tail. -/
def gameAtTail : State :=
  game cfg3 [⟨2, 2⟩, ⟨3, 2⟩, ⟨3, 1⟩, ⟨2, 1⟩] .left .up ⟨7, 7⟩ true #v[0, 0x30, 0x30, 0, 0, 0, 0, 0x01]

/-- 63 segments, row by row and back, the head beside the only free cell, which is the food. -/
def boardPath : List Pos :=
  (List.range 63).map fun k =>
    ⟨BitVec.ofNat 3 (if k / 8 % 2 = 0 then k % 8 else 7 - k % 8), BitVec.ofNat 3 (k / 8)⟩
def fullBoard (draws : List Pos) : State :=
  { game cfgAtReset boardPath.reverse .left .left ⟨0, 7⟩ true fbClear with draws := draws }

/-- Result words, direction, pending direction, snake, food, phase and rows after a step. -/
structure Seen where
  results : List Word
  dir : Dir
  pend : Dir
  snake : List Pos
  food : Pos
  vis : Bool
  rows : List Byte
deriving DecidableEq, Repr

def seen (t : State) : Seen := ⟨t.results, t.dir, t.pend, body t, t.food, t.vis, t.fb.toList⟩

/-- The frames sent, as address and data. -/
def sent (t : State) : List (Byte × Byte) := t.frames.map fun f => (f.addr, f.data)

/-! ### Well-formedness: each ill-formed term is refused (30_encoding.md R88, R89) -/

theorem test_illformed_selectors_refused :
    [0x07, 0x3F, 0x88, 0xFF].all (fun sel => !(Instr.geQuery sel).wellFormed) = true ∧
      [0x00, 0x06, 0x40, 0x7F, 0x80, 0x87].all (fun sel => (Instr.geQuery sel).wellFormed) = true := by decide

/-! ### Decoding: words written bit by bit from 30_encoding.md R81, R83 and the table's encodings -/

theorem test_decode_matrix_commands :
    decode (.command 0b0001_0000000000000000000000000000) = .ok .mdInit ∧
    decode (.command 0b0010_00000000000000000_010_0_101_000_1) = .ok (.mdSetpix 2 5 true) ∧
    decode (.command 0b0010_00000000000000000_111_0_111_000_0) = .ok (.mdSetpix 7 7 false) ∧
    decode (.command 0b0011_00000000000000000_010_0_101_0000) = .ok (.mdGetpix 2 5) ∧
    decode (.command 0b0100_00000000000000000000_00010100) = .ok (.mdSetint 20) ∧
    decode (.command 0b0101_000000000000000000000000000_1) = .ok (.mdShdn true) ∧
    decode (.command 0b0101_000000000000000000000000000_0) = .ok (.mdShdn false) ∧
    decode (.command 0b0110_0000000000000000000000000000) = .ok .mdFlush := by decide

theorem test_decode_game_commands :
    decode (.command 0b1000_0000000000000000000000000000) = .ok .geReset ∧
    decode (.command 0b1001_0000_001000000000_000000000000) = .ok (.geSteer 512 0) ∧
    decode (.command 0b1001_0000_000000000000_001000000000) = .ok (.geSteer 0 512) ∧
    decode (.command 0b1001_0000_111111111111_111111111111) = .ok (.geSteer 4095 4095) ∧
    decode (.command 0b1010_0000000000000000000000000000) = .ok .geTick ∧
    decode (.command 0b1011_0000000000000000000000000000) = .ok .geBlink ∧
    decode (.command 0b1100_00000000000000000000_01000011) = .ok (.geQuery 0x43) ∧
    decode (.command 0b1100_00000000000000000000_10000111) = .ok (.geQuery 0x87) := by decide

theorem test_decode_frames :
    decode (.frame 0b00000001_10100101) = .ok (.frameRow0 0xA5) ∧
    decode (.frame 0b00000010_01110000) = .ok (.frameRow1 0x70) ∧
    decode (.frame 0b00000011_10100101) = .ok (.frameRow2 0xA5) ∧
    decode (.frame 0b00000100_10100101) = .ok (.frameRow3 0xA5) ∧
    decode (.frame 0b00000101_10100101) = .ok (.frameRow4 0xA5) ∧
    decode (.frame 0b00000110_10100101) = .ok (.frameRow5 0xA5) ∧
    decode (.frame 0b00000111_10100101) = .ok (.frameRow6 0xA5) ∧
    decode (.frame 0b00001000_10100101) = .ok (.frameRow7 0xA5) ∧
    decode (.frame 0b00001001_00000000) = .ok (.frameDecode 0x00) ∧
    decode (.frame 0b00001010_00001000) = .ok (.frameIntensity 0x08) ∧
    decode (.frame 0b00001011_00000111) = .ok (.frameScanlimit 0x07) ∧
    decode (.frame 0b00001100_00000001) = .ok (.frameShutdown 0x01) ∧
    decode (.frame 0b00001111_00000000) = .ok (.frameDisptest 0x00) := by decide

/-- The words 95_test_vectors.md section 2.1 says are refused, and the frame addresses of 30_encoding.md R93. -/
theorem test_decode_refuses :
    [0x00000000, 0x70000000, 0xD0000000, 0xE0000000, 0xF0000000].all
      (fun c => decide (decode (.command c) = .error .reservedOp)) = true ∧
    [0x10000001, 0x60000001, 0x20001000, 0x20000008, 0x30000251, 0x40000100, 0x50000002, 0x91000000, 0xC0000100].all
      (fun c => decide (decode (.command c) = .error .reservedBits)) = true ∧
    [0xC0000007, 0xC000003F, 0xC0000088, 0xC00000FF].all
      (fun c => decide (decode (.command c) = .error .reservedSelector)) = true ∧
    [0x0000, 0x0D00, 0x0E00, 0x1000, 0xFF00].all
      (fun w => decide (decode (.frame w) = .error .unusedFrameAddress)) = true := by decide

/-- The table's numbering: 16-bit rows are frames, 32-bit rows commands. -/
theorem test_decode_table_word :
    decodeTableWord 32 0x902003FF = some (.geSteer 512 1023) ∧ decodeTableWord 16 0x0A08 = some (.frameIntensity 8) ∧
      decodeTableWord 32 0x70000000 = none := by decide

/-! ### The matrix driver (95_test_vectors.md sections 1 and 2.2) -/

/-- L1.10, and the lines at rest after it (10_state.md R25). -/
theorem test_mdInit_frames :
    view (fun t => (t.results, sent t, t.fb.toList, t.lines)) (run 0x10000000 [] State.reset) =
      some ([0], [(0x0F, 0x00), (0x0B, 0x07), (0x09, 0x00), (0x0A, 0x08), (0x0C, 0x01), (1, 0), (2, 0), (3, 0), (4, 0),
        (5, 0), (6, 0), (7, 0), (8, 0)], [0, 0, 0, 0, 0, 0, 0, 0], ⟨true, false, false⟩) := by decide

/-- Section 2.7: MD.INIT during a game clears the picture and keeps the snake. -/
theorem test_mdInit_keeps_the_game :
    view seen (run 0x10000000 [] game0) =
      some ⟨[0], .right, .right, [⟨3, 1⟩, ⟨2, 1⟩, ⟨1, 1⟩], ⟨5, 5⟩, true, [0, 0, 0, 0, 0, 0, 0, 0]⟩ := by decide

/-- Rows 5 and 11. -/
theorem test_mdSetpix_writes_a_bit :
    view (fun t => (t.results, sent t, t.fbValid, t.fb.toList)) (run 0x20000251 [] State.reset) =
      some ([0], [], false, [0, 0, 0x04, 0, 0, 0, 0, 0]) ∧
    view (fun t => t.fb.toList) (exec (.mdSetpix 0 0 false) (game5 .left)) = some [0, 0, 0, 0, 0, 0, 0, 0x01] := by
  decide

/-- Rows 1, 9 and 10. -/
theorem test_mdGetpix_reads_a_bit :
    faultOf (run 0x30000250 [] State.reset) = some .framebufferUnwritten ∧
    view (·.results) (exec (.mdGetpix 1 3) game0) = some [1] ∧
    view (·.results) (exec (.mdGetpix 1 4) game0) = some [0] := by decide

/-- L1.11: modulo 16, not saturated. -/
theorem test_mdSetint_modulo_16 :
    view sent (run 0x40000014 [] State.reset) = some [(0x0A, 0x04)] ∧
    view sent (run 0x4000000F [] State.reset) = some [(0x0A, 0x0F)] ∧
    view sent (run 0x40000010 [] State.reset) = some [(0x0A, 0x00)] := by decide

/-- L1.11: the wire value is inverted. -/
theorem test_mdShdn_inverted :
    view sent (run 0x50000001 [] State.reset) = some [(0x0C, 0x00)] ∧
    view sent (run 0x50000000 [] State.reset) = some [(0x0C, 0x01)] := by decide

/-- Rows 2 and 13. -/
theorem test_mdFlush_rows :
    faultOf (run 0x60000000 [] State.reset) = some .framebufferUnwritten ∧
    view sent (run 0x60000000 [] { on cfgAtReset with fb := #v[0x80, 0, 0x04, 0, 0, 0, 0, 0x01], fbValid := true }) =
      some [(1, 0x80), (2, 0), (3, 0x04), (4, 0), (5, 0), (6, 0), (7, 0), (8, 0x01)] := by decide

/-- L1.9: the data bits of one frame in wire order, and the lines after it. -/
theorem test_frame_wire_order :
    frameBits 0x0A08 = [false, false, false, false, true, false, true, false,
      false, false, false, false, true, false, false, false] ∧
    (frameEvents 0x0A08).length = 50 ∧
    (frameEvents 0x0A08).take 4 = [.cs false, .din false, .clk true, .clk false] ∧
    runEvents ⟨true, false, true⟩ (frameEvents 0x0A08) = ⟨true, false, false⟩ := by decide

/-- Each frame is one register write at its address (30_encoding.md R91); its word set where the step takes it. -/
theorem test_frames_are_writes :
    [0x01A5, 0x02A5, 0x03A5, 0x04A5, 0x05A5, 0x06A5, 0x07A5, 0x08A5, 0x0900, 0x0A08, 0x0B07, 0x0C01, 0x0F00].map
      (fun w => view sent (step (State.reset.withFetchWord 16 w))) =
    [some [(0x01, 0xA5)], some [(0x02, 0xA5)], some [(0x03, 0xA5)], some [(0x04, 0xA5)], some [(0x05, 0xA5)],
      some [(0x06, 0xA5)], some [(0x07, 0xA5)], some [(0x08, 0xA5)], some [(0x09, 0x00)], some [(0x0A, 0x08)],
      some [(0x0B, 0x07)], some [(0x0C, 0x01)], some [(0x0F, 0x00)]] := by decide

/-! ### Steering (section 2.3) -/

/-- The rows whose committed direction is RIGHT. -/
theorem test_geSteer_moving_horizontally :
    [(512, 0), (512, 299), (512, 300), (512, 512), (512, 700), (512, 701), (512, 4095), (0, 512), (4095, 512)].map
      (fun (x : BitVec 12 × BitVec 12) => view (·.pend) (exec (.geSteer x.1 x.2) game0)) =
    [some .up, some .up, some .right, some .right, some .right, some .down, some .down, some .right, some .right] := by
  decide

/-- The rows whose committed direction is UP, and the fault before construction. -/
theorem test_geSteer_moving_vertically :
    [(0, 512), (299, 512), (300, 512), (700, 512), (701, 512), (4095, 512), (512, 0)].map
      (fun (x : BitVec 12 × BitVec 12) =>
        view (·.pend) (exec (.geSteer x.1 x.2) { game0 with dir := .up, pend := .up })) =
    [some .left, some .left, some .up, some .up, some .right, some .right, some .up] ∧
    faultOf (run 0x90000000 [] State.reset) = some .gameUnwritten := by decide

/-! ### Construction, tick, blink, query (sections 2.4 to 2.7) -/

/-- CFG0 and CFG2 initial states, their frames: a flush and no control frame. -/
theorem test_geReset_initial_images :
    view seen (run 0x80000000 [] State.reset) =
      some ⟨[0], .right, .right, [⟨3, 1⟩, ⟨2, 1⟩, ⟨1, 1⟩], ⟨5, 5⟩, true, [0, 0x70, 0, 0, 0, 0x04, 0, 0]⟩ ∧
    view (fun t => (sent t, body t)) (run 0x80000000 [] (on cfg2)) =
      some ([(1, 0), (2, 0), (3, 0), (4, 0xF8), (5, 0), (6, 0), (7, 0), (8, 0x80)],
        [⟨4, 3⟩, ⟨3, 3⟩, ⟨2, 3⟩, ⟨1, 3⟩, ⟨0, 3⟩]) := by decide

/-- T1, T2, T4, T7, T11 and T14: the ticks that move or grow. -/
theorem test_geTick_moves_and_grows :
    view seen (run 0xA0000000 [] game0) =
      some ⟨[0], .right, .right, [⟨4, 1⟩, ⟨3, 1⟩, ⟨2, 1⟩], ⟨5, 5⟩, true, [0, 0x38, 0, 0, 0, 0x04, 0, 0]⟩ ∧
    view seen (run 0xA0000000 [⟨3, 1⟩, ⟨4, 1⟩, ⟨6, 6⟩] game1) =
      some ⟨[1], .right, .right, [⟨4, 1⟩, ⟨3, 1⟩, ⟨2, 1⟩, ⟨1, 1⟩], ⟨6, 6⟩, true, [0, 0x78, 0, 0, 0, 0, 0x02, 0]⟩ ∧
    view (fun t => (t.results, t.food, t.fb.toList))
        (run 0xA0000000 (List.replicate 511 ⟨3, 1⟩ ++ [⟨0, 0⟩]) game1) =
      some ([1], ⟨0, 0⟩, [0x80, 0x78, 0, 0, 0, 0, 0, 0]) ∧
    view (fun t => (t.food, t.vis, t.fb.toList, t.draws))
        (run 0xA0000000 [⟨6, 6⟩, ⟨0, 0⟩] { game1 with vis := false, fb := #v[0, 0x70, 0, 0, 0, 0, 0, 0] }) =
      some (⟨6, 6⟩, false, [0, 0x78, 0, 0, 0, 0, 0, 0], []) ∧
    view seen (run 0xA0000000 [] (game5 .down)) =
      some ⟨[0], .down, .down, [⟨0, 1⟩], ⟨7, 7⟩, true, [0, 0x80, 0, 0, 0, 0, 0, 0x01]⟩ ∧
    view seen (run 0xA0000000 [] (game cfg4 [⟨2, 2⟩, ⟨3, 2⟩, ⟨3, 1⟩] .left .up ⟨7, 7⟩ true
        #v[0, 0x10, 0x30, 0, 0, 0, 0, 0x01])) =
      some ⟨[0], .up, .up, [⟨2, 1⟩, ⟨2, 2⟩, ⟨3, 2⟩], ⟨7, 7⟩, true, [0, 0x20, 0x30, 0, 0, 0, 0, 0x01]⟩ := by
  decide +kernel

/-- T5, T6, T8, T9, T10, T13 and T15: the ticks that restart, are stuck, or fault. -/
theorem test_geTick_restarts_and_stops :
    view seen (run 0xA0000000 (List.replicate 512 ⟨3, 1⟩) game1) =
      some ⟨[4], .right, .right, [⟨3, 1⟩, ⟨2, 1⟩, ⟨1, 1⟩], ⟨4, 1⟩, true, [0, 0x78, 0, 0, 0, 0, 0, 0]⟩ ∧
    faultOf (run 0xA0000000 (List.replicate 511 ⟨3, 1⟩) game1) = some .drawsRanOut ∧
    view (fun t => (t.gstate, sent t, seen t)) (run 0xA0000000 [] gameAtWall) =
      some (.running, [(1, 0), (2, 0x70), (3, 0), (4, 0), (5, 0), (6, 0x04), (7, 0), (8, 0)],
        ⟨[2], .right, .right, [⟨3, 1⟩, ⟨2, 1⟩, ⟨1, 1⟩], ⟨5, 5⟩, true, [0, 0x70, 0, 0, 0, 0x04, 0, 0]⟩) ∧
    view (·.results) (run 0xA0000000 [] (game5 .left)) = some [2] ∧
    view (fun t => (t.results, t.pend)) (run 0xA0000000 [] (game5 .up)) = some ([2], .left) ∧
    view (fun t => (t.results, t.fb.toList)) (run 0xA0000000 [] gameAtTail) =
      some ([3], [0, 0xF0, 0, 0, 0, 0, 0, 0x01]) ∧
    faultOf (run 0xA0000000 [] State.reset) = some .gameUnwritten := by decide +kernel

/-- B1, B2 and B5. -/
theorem test_geBlink_toggles :
    view (fun t => (t.vis, t.fb.toList)) (run 0xB0000000 [] game1) = some (false, [0, 0x70, 0, 0, 0, 0, 0, 0]) ∧
    view (fun t => (t.vis, t.fb.toList))
        (run 0xB0000000 [] { game1 with vis := false, fb := #v[0, 0x70, 0, 0, 0, 0, 0, 0] }) =
      some (true, [0, 0x78, 0, 0, 0, 0, 0, 0]) ∧
    faultOf (run 0xB0000000 [] State.reset) = some .gameUnwritten := by decide

/-- Section 2.6, in the state of L1.1. -/
theorem test_geQuery_values :
    [0xC0000000, 0xC0000001, 0xC0000002, 0xC0000003, 0xC0000004, 0xC0000005, 0xC0000006, 0xC0000040, 0xC0000042,
      0xC0000043, 0xC000007F, 0xC0000081, 0xC0000085].map
      (fun c => view (·.results) (run c [] (game cfgAtReset [⟨4, 1⟩, ⟨3, 1⟩, ⟨2, 1⟩] .right .right ⟨5, 5⟩ true
        #v[0, 0x38, 0, 0, 0, 0x04, 0, 0]))) =
    [some [3], some [3], some [3], some [0x41], some [0x55], some [1], some [0], some [0x41], some [0x21], some [0xFF],
      some [0xFF], some [0x38], some [0x04]] := by decide

/-- Section 2.6: refused selectors, and reads before a write. -/
theorem test_geQuery_stops :
    refusalIn (run 0xC0000007 [] game0) = some .reservedSelector ∧
    refusalIn (exec (.geQuery 0x88) game0) = some .reservedSelector ∧
    faultOf (run 0xC0000000 [] State.reset) = some .gameUnwritten ∧
    faultOf (run 0xC0000080 [] State.reset) = some .framebufferUnwritten := by decide

/-! ### The step and the host's side -/

/-- Refused words, an invalid configuration, and waiting. -/
theorem test_step_refuses_and_waits :
    refusalIn (run 0x70000000 [] State.reset) = some .reservedOp ∧
    refusalIn (run 0x10000001 [] State.reset) = some .reservedBits ∧
    refusalIn (step (State.reset.withFetchWord 16 0x0D00)) = some .unusedFrameAddress ∧
    refusalIn (run 0x10000000 [] (on { cfgAtReset with initFood := ⟨1, 1⟩ })) = some .invalidConfig ∧
    refusalIn (run 0x10000000 [] (on { cfgAtReset with initLen := 5 })) = some .invalidConfig ∧
    refusalIn (run 0x10000000 [] (on { cfgAtReset with deadHi := 299 })) = some .invalidConfig ∧
    view id (step State.reset) = some State.reset := by decide

/-- L1.12. -/
theorem test_scheduler :
    taskCheck (99 : BitVec 32) ⟨0, 100⟩ = ⟨0, 100⟩ ∧ taskCheck (100 : BitVec 32) ⟨0, 100⟩ = ⟨100, 100⟩ ∧
    taskCheck 250 (⟨100, 100⟩ : Task) = ⟨250, 100⟩ ∧
    taskCheck (0x54 : BitVec 32) ⟨0xFFFFFFF0, 100⟩ = ⟨0x54, 100⟩ := by decide

/-- The lines of 30_encoding.md R96 and their words, and assembly errors. -/
theorem test_assemble :
    ["md.init", "md.setpix 2, 5, 1", "md.getpix 2, 5", "md.setint 20", "md.shdn 1", "md.flush", "ge.reset",
      "ge.steer 512, 1023", "ge.tick", "ge.blink", "ge.query 0x43"].map (fun l => (assemble l).map encode) =
    [0x10000000, 0x20000251, 0x30000250, 0x40000014, 0x50000001, 0x60000000, 0x80000000, 0x902003FF, 0xA0000000,
      0xB0000000, 0xC0000043].map (fun c => some (.command c)) ∧
    ["MD.INIT", "md.setpix 8, 0, 1", "md.setint 256", "ge.steer 4096, 0", "ge.tick 1", "md.shdn"].map assemble =
      [none, none, none, none, none, none] := by decide

/-- A device on the wire latches the frame of L1.9. -/
theorem test_receiver_latches : (receiveAll Receiver.idle (frameEvents 0x0A08)).latched = [0x0A08] := by decide

/-! ### Witnesses: states and operands that meet the hypotheses of each statement, all of them together -/

theorem game0_inv : Inv game0 :=
  ⟨fun _ => ⟨by decide, by decide, by decide, by decide, .inl rfl, rfl⟩, fun _ => rfl, rfl, rfl, rfl, rfl⟩

theorem game0_image : ImageOk game0 := by
  rintro ⟨x, y⟩
  revert x y
  decide

theorem witness_DecodeOfEncode :
    ([.geQuery 0x06, .geQuery 0x40, .geQuery 0x87, .geSteer 4095 4095, .frameDisptest 0xFF] : List Instr).all
      Instr.wellFormed = true := by decide

theorem witness_EncodeOfDecode :
    decode (.command 0x90FFFFFF) = .ok (.geSteer 4095 4095) ∧ decode (.frame 0x08FF) = .ok (.frameRow7 0xFF) := by
  decide

theorem witness_ReservedOperationCodeRefused :
    configValid game0.cfg = true ∧ (issued 0xF0000000 [] game0).pendingFrame = none ∧
    (issued 0xF0000000 [] game0).port = [⟨0xF0000000, []⟩] ∧
    [0x00000000, 0x70000000, 0xD0000000, 0xE0000000, 0xFFFFFFFF].all
      (fun c : Word => decide (c.extractLsb' 28 4 ∈ ([0x0, 0x7, 0xD, 0xE, 0xF] : List (BitVec 4)))) = true := by
  decide

/-- For each operation code a word with its lowest and one with its highest should-be-zero bit set. -/
theorem witness_NonzeroReservedBitRefused :
    configValid game0.cfg = true ∧ (issued 0x10000001 [] game0).port = [⟨0x10000001, []⟩] ∧
    ([(0x10000001, 0x1, 0x0FFFFFFF), (0x20000002, 0x2, 0x0FFFF88E), (0x28000000, 0x2, 0x0FFFF88E),
      (0x30000001, 0x3, 0x0FFFF88F), (0x40000100, 0x4, 0x0FFFFF00), (0x50000002, 0x5, 0x0FFFFFFE),
      (0x68000000, 0x6, 0x0FFFFFFF), (0x80000001, 0x8, 0x0FFFFFFF), (0x91000000, 0x9, 0x0F000000),
      (0x98000000, 0x9, 0x0F000000), (0xA0000001, 0xA, 0x0FFFFFFF), (0xB0000001, 0xB, 0x0FFFFFFF),
      (0xC0000100, 0xC, 0x0FFFFF00)] : List (Word × BitVec 4 × Word)).all
      (fun x => decide (x.1.extractLsb' 28 4 = x.2.1 ∧ x.1 &&& x.2.2 ≠ 0)) = true := by decide

/-- The bounds of both reserved ranges, the oldest command carrying one. -/
theorem witness_ReservedSelectorRefused :
    configValid game0.cfg = true ∧ (issued 0xC0000007 [] game0).pendingFrame = none ∧
    (issued 0xC0000007 [] game0).port = [⟨0xC0000007, []⟩] ∧
    [(0xC0000007, 0x07), (0xC000003F, 0x3F), (0xC0000088, 0x88), (0xC00000FF, 0xFF)].all (fun x : Word × Byte =>
      decide (x.1 = 0xC#4 ++ 0#20 ++ x.2 ∧ ((0x07 ≤ x.2.toNat ∧ x.2.toNat ≤ 0x3F) ∨ 0x88 ≤ x.2.toNat))) = true := by
  decide

theorem witness_UnusedFrameAddressRejected :
    configValid (State.reset.withFetchWord 16 0x0DFF).cfg = true ∧
    (State.reset.withFetchWord 16 0x0DFF).pendingFrame = some (0x0D#8 ++ 0xFF#8) ∧
    [0x00, 0x0D, 0x0E, 0x10, 0xFF].all (fun addr : Byte =>
      decide (addr = 0x00 ∨ addr = 0x0D ∨ addr = 0x0E ∨ 0x10 ≤ addr.toNat)) = true := by decide

theorem witness_StepRunsDecodedWord :
    configValid game0.cfg = true ∧ (issued 0xA0000000 [] game0).pendingFrame = none ∧
    (issued 0xA0000000 [] game0).port = [⟨0xA0000000, []⟩] ∧ decode (.command 0xA0000000) = .ok .geTick ∧
    (State.reset.withFetchWord 16 0x01FF).pendingFrame = some 0x01FF ∧
    decode (.frame 0x01FF) = .ok (.frameRow0 0xFF) := by decide

/-- A configuration at the bounds of 00_scope.md R10: eight segments, intensity 15, an empty dead zone but one value. -/
def cfgAtBounds : Config :=
  { deadLo := 512, deadHi := 512, frameInterval := 0, blinkInterval := 0, intensity := 15, initHead := ⟨7, 0⟩,
    initLen := 8, initDir := .right, initFood := ⟨0, 1⟩ }

theorem witness_InvalidConfigurationRefused : configValid cfgAtBounds = true ∧ configValid cfg5 = true := by decide

theorem witness_StepWaitsWithoutCommand :
    configValid game0.cfg = true ∧ game0.pendingFrame = none ∧ game0.port = [] := by decide

theorem witness_MdGetpixReturnsTheBit : game0.fbValid = true ∧ State.reset.fbValid = false := by decide

theorem witness_MdFlushSendsAllRows : game0.fbValid = true ∧ State.reset.fbValid = false := by decide

theorem witness_SetPixelThenGetPixel : game0.fbValid = true ∧ ¬ ((7 : BitVec 3) = 0 ∧ (7 : BitVec 3) = 0) := by decide

theorem witness_FlushTwiceSendsTheSameFrames : game0.fbValid = true := by decide

theorem witness_FrameWritesItsRegister :
    ((.frameDisptest 0xFF, 0x0F) : Instr × Byte) ∈ ([(.frameRow0 0xFF, 0x01), (.frameRow1 0xFF, 0x02),
      (.frameRow2 0xFF, 0x03), (.frameRow3 0xFF, 0x04), (.frameRow4 0xFF, 0x05), (.frameRow5 0xFF, 0x06),
      (.frameRow6 0xFF, 0x07), (.frameRow7 0xFF, 0x08), (.frameDecode 0xFF, 0x09), (.frameIntensity 0xFF, 0x0A),
      (.frameScanlimit 0xFF, 0x0B), (.frameShutdown 0xFF, 0x0C), (.frameDisptest 0xFF, 0x0F)] :
      List (Instr × Byte)) := by decide

theorem witness_LinesFollowTheWaveform :
    LinesFollowTrace (issued 0x40000014 [] State.reset) ∧
    ∃ t, step (issued 0x40000014 [] State.reset) = .next t :=
  ⟨rfl, _, rfl⟩

theorem witness_CommandsSendOnlyListedFrames :
    encode .mdInit = .command 0x10000000 ∧ ∃ t, exec .mdInit State.reset = .next t := ⟨by decide, _, rfl⟩

/-- One command of each count: 13, 1, 1, 8 and 0 frames. -/
theorem witness_FramesAndPulsesPerCommand :
    ([.mdInit, .mdSetint 0xFF, .mdShdn true, .mdFlush, .geReset, .geTick, .geBlink, .mdSetpix 7 7 true, .mdGetpix 7 7,
      .geSteer 4095 4095, .geQuery 0x87] : List Instr).all (fun i => (after (exec i game0)).isSome) = true := by
  decide

theorem witness_GeSteerWritesPendOnly : game0.geValid = true ∧ State.reset.geValid = false := by decide

theorem witness_SteerIgnoresTheAxisOfMotion :
    (game0.dir = .left ∨ game0.dir = .right) ∧ (State.reset.dir = .up ∨ State.reset.dir = .down) := by decide

theorem witness_GeResetConstructsTheGame :
    configValid cfgAtReset = true ∧ (0 : BitVec 6).toNat < cfgAtReset.initLen.toNat ∧
    (2 : BitVec 6).toNat < cfgAtReset.initLen.toNat := by decide

/-- Length 3, and length 1 where the head is the tail. -/
theorem witness_TickMovesTheSnake :
    (game0.geValid = true ∧ game0.fbValid = true ∧ 1 ≤ game0.len.toNat ∧ game0.len.toNat ≤ 64 ∧
      StepsTo game0.pend (headOf game0) ⟨4, 1⟩ ∧ (⟨4, 1⟩ : Pos) ≠ game0.food ∧ (⟨4, 1⟩ : Pos) ∉ body game0) ∧
    (game5 .down).len.toNat = 1 ∧ StepsTo (game5 .down).pend (headOf (game5 .down)) ⟨0, 1⟩ ∧
      (⟨0, 1⟩ : Pos) ≠ (game5 .down).food ∧ (⟨0, 1⟩ : Pos) ∉ body (game5 .down) := by
  unfold StepsTo; decide

theorem witness_TickGrowsTheSnake :
    game1.geValid = true ∧ game1.fbValid = true ∧ 1 ≤ game1.len.toNat ∧ game1.len.toNat ≤ 63 ∧
    StepsTo game1.pend (headOf game1) game1.food ∧
    { game1 with draws := [⟨3, 1⟩, ⟨4, 1⟩, ⟨6, 6⟩] }.draws = [⟨3, 1⟩, ⟨4, 1⟩] ++ ⟨6, 6⟩ :: [] ∧
    ([⟨3, 1⟩, ⟨4, 1⟩] : List Pos).length < 512 ∧ (∀ q ∈ ([⟨3, 1⟩, ⟨4, 1⟩] : List Pos), q ∈ game1.food :: body game1) ∧
    (⟨6, 6⟩ : Pos) ∉ game1.food :: body game1 := by
  unfold StepsTo; decide

/-- At the right edge, and at the left edge with one segment. -/
theorem witness_TickOffTheGridRestarts :
    gameAtWall.geValid = true ∧ gameAtWall.cfg.initLen.toNat ≤ 64 ∧ StepsOff gameAtWall.pend (headOf gameAtWall) ∧
    StepsOff (game5 .left).pend (headOf (game5 .left)) ∧ StepsOff (game5 .up).pend (headOf (game5 .up)) := by
  unfold StepsOff; decide

/-- The candidate is the tail, the last segment that counts. -/
theorem witness_TickIntoTheBodyRestarts :
    gameAtTail.geValid = true ∧ gameAtTail.cfg.initLen.toNat ≤ 64 ∧
    StepsTo gameAtTail.pend (headOf gameAtTail) (tailOf gameAtTail) ∧ tailOf gameAtTail ≠ gameAtTail.food ∧
    tailOf gameAtTail ∈ body gameAtTail := by
  unfold StepsTo; decide

theorem witness_TickWithoutRoomForFoodRestarts :
    (fullBoard (List.replicate 512 ⟨3, 1⟩)).geValid = true ∧
    (fullBoard (List.replicate 512 ⟨3, 1⟩)).cfg.initLen.toNat ≤ 64 ∧
    StepsTo (fullBoard (List.replicate 512 ⟨3, 1⟩)).pend (headOf (fullBoard (List.replicate 512 ⟨3, 1⟩)))
      (fullBoard (List.replicate 512 ⟨3, 1⟩)).food ∧
    512 ≤ (fullBoard (List.replicate 512 ⟨3, 1⟩)).draws.length ∧
    ∀ q ∈ (fullBoard (List.replicate 512 ⟨3, 1⟩)).draws.take 512,
      q ∈ (fullBoard (List.replicate 512 ⟨3, 1⟩)).food :: body (fullBoard (List.replicate 512 ⟨3, 1⟩)) := by
  refine ⟨rfl, by decide, by unfold StepsTo; decide, List.length_replicate.ge, fun q hq => ?_⟩
  rw [List.eq_of_mem_replicate (List.mem_of_mem_take hq)]
  decide

theorem witness_TickIsStuckWithoutDraws :
    game1.geValid = true ∧ StepsTo game1.pend (headOf game1) game1.food ∧
    { game1 with draws := [⟨3, 1⟩] }.draws.length < 512 ∧
    ∀ q ∈ { game1 with draws := [⟨3, 1⟩] }.draws, q ∈ game1.food :: body game1 := by
  unfold StepsTo; decide

theorem witness_TickOutcomeSummary :
    game0.cfg.initLen.toNat ≤ 64 ∧ game0.len.toNat ≤ 63 ∧ ∃ t, exec .geTick game0 = .next t := by
  obtain ⟨t, h, -⟩ := exists_of_view (f := (·.results)) (o := exec .geTick game0) (b := [0]) (by decide)
  exact ⟨by decide, by decide, t, h⟩

/-- A game that runs into the wall and one that runs into its own body, of one configuration. -/
def gameInLoop : State :=
  game cfgAtReset [⟨2, 2⟩, ⟨3, 2⟩, ⟨3, 1⟩, ⟨2, 1⟩] .left .up ⟨7, 7⟩ false fbClear

theorem witness_RestartDependsOnConfigAlone :
    gameInLoop.cfg = gameAtWall.cfg ∧ gameAtWall.cfg.initLen.toNat ≤ 64 ∧
    ∃ t t', exec .geTick gameAtWall = .next t ∧ exec .geTick gameInLoop = .next t' ∧
      Returned 2 gameAtWall t ∧ Returned 3 gameInLoop t' := by
  obtain ⟨t, h, k⟩ := exists_of_view (f := fun t => (t.results, t.draws)) (o := exec .geTick gameAtWall)
    (b := ([2], [])) (by decide)
  obtain ⟨t', h', k'⟩ := exists_of_view (f := fun t => (t.results, t.draws)) (o := exec .geTick gameInLoop)
    (b := ([3], [])) (by decide)
  exact ⟨rfl, by decide, t, t', h, h', ⟨congrArg Prod.fst k, congrArg Prod.snd k⟩,
    ⟨congrArg Prod.fst k', congrArg Prod.snd k'⟩⟩

theorem witness_FullBoardAlwaysExhausts :
    (fullBoard []).geValid = true ∧ (fullBoard []).cfg.initLen.toNat ≤ 64 ∧ GameInv (fullBoard []) ∧
    (fullBoard []).len = 63 ∧ StepsTo (fullBoard []).pend (headOf (fullBoard [])) (fullBoard []).food :=
  ⟨rfl, by decide, ⟨by decide, by decide, by decide +kernel, by decide +kernel, .inl rfl, rfl⟩, by decide,
    by unfold StepsTo; decide⟩

theorem witness_GeBlinkTogglesTheFood :
    game0.geValid = true ∧ game0.fbValid = true ∧ State.reset.geValid = false := by decide

/-- The boundary selectors of each range. -/
theorem witness_GeQueryReturnsTheSelectedValue :
    game0.geValid = true ∧ game0.fbValid = true ∧
    [0x00, 0x06, 0x40, 0x7F, 0x80, 0x87].all (fun sel : Byte =>
      decide (sel.toNat ≤ 0x06 ∨ (0x40 ≤ sel.toNat ∧ sel.toNat ≤ 0x87))) = true ∧
    [0x07, 0x3F, 0x88, 0xFF].all (fun sel : Byte =>
      decide ((0x07 ≤ sel.toNat ∧ sel.toNat ≤ 0x3F) ∨ 0x88 ≤ sel.toNat)) = true ∧
    State.reset.fbValid = false ∧ State.reset.geValid = false := by decide

theorem witness_ReadsOfUnwrittenStateFault :
    State.reset.fbValid = false ∧ State.reset.geValid = false := by decide

theorem witness_EveryCommandReturnsOneWord :
    encode (.geQuery 0x87) = .command 0xC0000087 ∧ ∃ t, exec (.geQuery 0x87) game0 = .next t := ⟨by decide, _, rfl⟩

/-- A steer that writes `pend`; a restart, which writes it by GE.TICK; MD.INIT, which writes `fbValid` before any game. -/
theorem witness_OnlyListedWritersChangeState :
    (∃ t, exec (.geSteer 0 0) game0 = .next t ∧ t.pend ≠ game0.pend) ∧
    (game0.geValid = true → game0.fbValid = true) ∧
    (∃ t, exec .geTick (game5 .up) = .next t ∧ t.pend ≠ (game5 .up).pend) ∧
    (State.reset.geValid = true → State.reset.fbValid = true) ∧
    ∃ t, exec .mdInit State.reset = .next t ∧ t.fbValid ≠ State.reset.fbValid := by
  obtain ⟨t, h, k⟩ := exists_of_view (f := (·.pend)) (o := exec .geTick (game5 .up)) (b := .left) (by decide)
  exact ⟨⟨_, rfl, by decide⟩, by decide, ⟨t, h, by rw [k]; decide⟩, by decide, _, rfl, by decide⟩

/-- Two states with one picture and two games, and each of the six commands. -/
theorem witness_MatrixCommandsIgnoreTheGame :
    SameFb game0 { game0 with len := 0, food := ⟨0, 0⟩, geValid := false } ∧
    SameWire game0 { game0 with len := 0, food := ⟨0, 0⟩, geValid := false } ∧
    ([.mdInit, .mdSetpix 0 0 true, .mdGetpix 7 7, .mdSetint 0xFF, .mdShdn true, .mdFlush] : List Instr).all
      (fun i => (after (exec i game0)).isSome) = true := ⟨⟨rfl, rfl⟩, ⟨rfl, rfl⟩, by decide⟩

/-- Two states with one game and two pictures and phases, and a tick. -/
theorem witness_GameLogicIgnoresPixelsAndPhase :
    SameLogic game0 { game0 with fb := fbClear, vis := false } ∧ ∃ t, exec .geTick game0 = .next t := by
  obtain ⟨t, h, -⟩ := exists_of_view (f := (·.results)) (o := exec .geTick game0) (b := [0]) (by decide)
  exact ⟨⟨rfl, rfl, rfl, rfl, rfl, rfl, rfl, rfl, rfl, rfl, rfl⟩, t, h⟩

theorem witness_StepKeepsTheInvariant :
    Inv (issued 0xA0000000 [] game0) ∧ ∃ t, step (issued 0xA0000000 [] game0) = .next t := by
  obtain ⟨t, h, -⟩ := exists_of_view (f := (·.results)) (o := run 0xA0000000 [] game0) (b := [0]) (by decide)
  obtain ⟨a, b, c, d, e, f⟩ := game0_inv
  exact ⟨⟨fun k => let g := a k; ⟨g.1, g.2, g.3, g.4, g.5, g.6⟩, b, c, d, e, f⟩, t, h⟩

theorem witness_StepKeepsTheImage :
    Inv (issued 0xA0000000 [] game0) ∧ (issued 0xA0000000 [] game0).geValid = true ∧
    ImageOk (issued 0xA0000000 [] game0) ∧
    (opcode 0xA0000000 ≠ 0x1 ∧ opcode 0xA0000000 ≠ 0x2) ∧
    ∃ t, step (issued 0xA0000000 [] game0) = .next t :=
  ⟨witness_StepKeepsTheInvariant.1, rfl, game0_image, by decide, witness_StepKeepsTheInvariant.2⟩

theorem witness_GeResetMakesTheImage : configValid State.reset.cfg = true := by decide

theorem witness_EveryCommandCompletes :
    Inv (issued 0xA0000000 (List.replicate 512 ⟨0, 0⟩) game0) ∧ game0.geValid = true ∧
    configValid game0.cfg = true ∧
    (issued 0xA0000000 (List.replicate 512 ⟨0, 0⟩) game0).port = [⟨0xA0000000, List.replicate 512 ⟨0, 0⟩⟩] ∧
    decode (.command 0xA0000000) = .ok .geTick ∧ 512 ≤ (List.replicate 512 (⟨0, 0⟩ : Pos)).length := by
  obtain ⟨a, b, c, d, e, f⟩ := game0_inv
  exact ⟨⟨fun k => let g := a k; ⟨g.1, g.2, g.3, g.4, g.5, g.6⟩, b, c, d, e, f⟩, rfl, by decide, rfl, by decide,
    List.length_replicate.ge⟩

theorem witness_StepOnlyAppendsToTheObservation :
    ∃ t, step (issued 0x10000000 [] State.reset) = .next t := ⟨_, rfl⟩

end Sys2Proof.Tests
end

/-! # Scope (00_scope.md): what a step runs, when it is refused for its configuration, and what it appends -/

namespace Sys2Proof.Machine

/-! ### Taking the next word -/

theorem fetch_of_pendingFrame {s : State} {w : FrameWord} (h : s.pendingFrame = some w) :
    fetch s = some (.frame w, { s with pendingFrame := none }) := by
  rw [fetch, h]

theorem fetch_of_port {s : State} {c : HostCommand} {rest : List HostCommand}
    (hn : s.pendingFrame = none) (hp : s.port = c :: rest) :
    fetch s = some (.command c.word, { s with port := rest, draws := c.draws }) := by
  simp only [fetch, hn, hp]

/-- With a valid configuration, a step is the meaning of the instruction its word decodes to. -/
theorem step_of_decode {s t : State} {w : InWord} {i : Instr} (hc : configValid s.cfg = true)
    (hf : fetch s = some (w, t)) (hd : decode w = .ok i) : step s = exec i t := by
  rw [step_of_fetch hc hf, runWord_of_ok t hd]

/-- Settles O8: each clause is the fetch of that kind of word, then the step of a decoded word. -/
theorem stepRunsDecodedWord : Obligations.StepRunsDecodedWord := by
  unfold Obligations.StepRunsDecodedWord
  exact ⟨fun _ _ _ _ hc hn hp hd => step_of_decode hc (fetch_of_port hn hp) hd,
    fun _ _ _ hc hw hd => step_of_decode hc (fetch_of_pendingFrame hw) hd⟩

/-! ### The direction codes -/

theorem isHorizontal_eq_true_iff {d : Dir} : isHorizontal d = true ↔ d = .left ∨ d = .right := by
  cases d <;> simp [isHorizontal]

theorem isHorizontal_eq_false_iff {d : Dir} : isHorizontal d = false ↔ d = .up ∨ d = .down := by
  cases d <;> simp [isHorizontal]

/-- Bit 1 of a direction's code says whether it runs along a row. -/
theorem dirCode_getLsbD_one (d : Dir) : (dirCode d).getLsbD 1 = isHorizontal d := by
  cases d <;> rfl

theorem perpendicular_iff {a b : Dir} : perpendicular a b = true ↔ isHorizontal a ≠ isHorizontal b := by
  simp [perpendicular]

/-- Settles O54: bit 1 of a code is `isHorizontal`, and perpendicular directions differ in exactly that. -/
theorem directionCodesAndPerpendicularity : Obligations.DirectionCodesAndPerpendicularity := by
  unfold Obligations.DirectionCodesAndPerpendicularity
  refine ⟨rfl, rfl, rfl, rfl, fun a b => ⟨?_, ?_⟩⟩
  · rw [perpendicular_iff, ← isHorizontal_eq_true_iff, ← isHorizontal_eq_true_iff,
      ← isHorizontal_eq_false_iff, ← isHorizontal_eq_false_iff]
    cases isHorizontal a <;> cases isHorizontal b <;> decide
  · rw [perpendicular_iff, dirCode_getLsbD_one, dirCode_getLsbD_one]

/-! ### The configuration -/

theorem flushAndFinish_ne_refused (res : Word) (s : State) (r : Refusal) : flushAndFinish res s ≠ .refused r := by
  cases hv : s.fbValid with
  | true => simp [flushAndFinish_of_valid res hv]
  | false => simp [flushAndFinish_of_invalid res hv]

theorem restart_ne_refused (cause : Cause) (s : State) (r : Refusal) : restart cause s ≠ .refused r := by
  simp [restart_eq]

theorem tickGrow_ne_refused (c : Pos) (s : State) (r : Refusal) : tickGrow c s ≠ .refused r := by
  unfold tickGrow
  split
  · exact flushAndFinish_ne_refused _ _ r
  · exact restart_ne_refused _ s r
  · nofun

theorem tickMove_ne_refused (c : Pos) (s : State) (r : Refusal) : tickMove c s ≠ .refused r := by
  unfold tickMove
  split
  · exact restart_ne_refused _ s r
  · exact flushAndFinish_ne_refused _ _ r

theorem execGeTick_ne_refused (s : State) (r : Refusal) : execGeTick s ≠ .refused r := by
  unfold execGeTick
  split
  · split
    · exact restart_ne_refused _ s r
    · split
      · exact tickGrow_ne_refused _ s r
      · exact tickMove_ne_refused _ s r
  · nofun

theorem execGeQuery_eq_refused {sel : Byte} {s : State} {r : Refusal} (h : execGeQuery sel s = .refused r) :
    r = .reservedSelector := by
  unfold execGeQuery at h
  split at h
  · cases h; rfl
  · split at h <;> cases h
  · split at h <;> cases h

/-- The only refusal of an instruction's own meaning is a query's, of a reserved selector. -/
theorem exec_eq_refused {i : Instr} {s : State} {r : Refusal} (h : exec i s = .refused r) :
    r = .reservedSelector := by
  cases i with
  | mdFlush => exact absurd h (flushAndFinish_ne_refused _ _ r)
  | mdGetpix row col => rw [exec, execMdGetpix] at h; split at h <;> cases h
  | geSteer x y => rw [exec, execGeSteer] at h; split at h <;> cases h
  | geTick => exact absurd h (execGeTick_ne_refused s r)
  | geBlink =>
    rw [exec, execGeBlink] at h
    split at h
    · exact absurd h (flushAndFinish_ne_refused _ _ r)
    · cases h
  | geQuery sel => exact execGeQuery_eq_refused h
  | _ => cases h

/-- Neither the decoder nor a meaning speaks of the configuration. -/
theorem runWord_ne_invalidConfig (w : InWord) (s : State) : runWord w s ≠ .refused .invalidConfig := by
  intro h
  cases hd : decode w with
  | ok i => rw [runWord_of_ok s hd] at h; cases exec_eq_refused h
  | error e => rw [runWord_of_error s hd] at h; cases e <;> cases h

theorem step_eq_invalidConfig_iff {s : State} :
    step s = .refused .invalidConfig ↔ ¬ configValid s.cfg = true := by
  unfold step
  split
  · rename_i hc
    refine iff_of_false ?_ (not_not_intro hc)
    split
    · simp
    · exact runWord_ne_invalidConfig _ _
  · rename_i hc
    exact iff_of_true rfl hc

theorem initBody_nodup_iff {cfg : Config} : (initBody cfg).Nodup ↔
    ∀ i < cfg.initLen.toNat, ∀ j < cfg.initLen.toNat, i ≠ j → initSegment cfg i ≠ initSegment cfg j := by
  rw [initBody, List.nodup_map_iff_inj_on List.nodup_range]
  simp only [List.mem_range, ne_eq, not_imp_not]

theorem initFood_notMem_initBody_iff {cfg : Config} : cfg.initFood ∉ initBody cfg ↔
    ∀ i < cfg.initLen.toNat, initSegment cfg i ≠ cfg.initFood := by
  simp [initBody]

/-- The initial segments and the food are distinct cells of a grid of 64 (00_scope.md rule R10). -/
theorem initLen_le_of_configValid {cfg : Config} (h : configValid cfg = true) : cfg.initLen.toNat ≤ 63 := by
  obtain ⟨-, -, -, hnodup, hfood⟩ := configValid_iff.1 h
  have hlen := length_le_of_nodup (List.nodup_cons.2 ⟨hfood, hnodup⟩)
  simp only [List.length_cons, initBody, List.length_map, List.length_range] at hlen
  omega

/-- The conditions of 00_scope.md rule R10 as the rule lists them, in integers. -/
theorem configValid_iff_conditions {cfg : Config} : configValid cfg = true ↔
    cfg.deadLo.toNat ≤ cfg.deadHi.toNat ∧ cfg.intensity.toNat ≤ 15 ∧
    1 ≤ cfg.initLen.toNat ∧ cfg.initLen.toNat ≤ 64 ∧
    (∀ i < cfg.initLen.toNat, (0 ≤ initX cfg i ∧ initX cfg i ≤ 7) ∧ (0 ≤ initY cfg i ∧ initY cfg i ≤ 7)) ∧
    (∀ i < cfg.initLen.toNat, ∀ j < cfg.initLen.toNat, i ≠ j → initSegment cfg i ≠ initSegment cfg j) ∧
    (∀ i < cfg.initLen.toNat, initSegment cfg i ≠ cfg.initFood) := by
  have hintensity : cfg.intensity.toNat ≤ 15 := Nat.le_of_lt_succ cfg.intensity.isLt
  rw [configValid_iff, initBody_nodup_iff, initFood_notMem_initBody_iff]
  simp only [inGrid_iff, BitVec.le_def, hintensity, true_and, and_assoc]

/-- Settles O9: a step answers `invalidConfig` exactly when `configValid` fails, which is the list of conditions. -/
theorem invalidConfigurationRefused : Obligations.InvalidConfigurationRefused := by
  unfold Obligations.InvalidConfigurationRefused
  intro s
  exact ⟨step_eq_invalidConfig_iff.trans (not_congr configValid_iff_conditions),
    fun h => initLen_le_of_configValid (configValid_iff_conditions.2 h)⟩

/-! ### What a step appends -/

/-- What no instruction goes beyond: the configuration and the port are kept, at most one result and at most thirteen
frames are appended (00_scope.md rules R6, R7, R9). -/
structure OnlyAppends (s t : State) : Prop where
  cfg : t.cfg = s.cfg
  port : t.port = s.port
  results : ∃ rs, t.results = s.results ++ rs ∧ rs.length ≤ 1
  frames : ∃ fs, t.frames = s.frames ++ fs ∧ fs.length ≤ 13

/-- A flush appends its eight frames to the at most five sent before it. -/
theorem onlyAppends_flushed {s u : State} {fs : List Frame} (res : Word) (hcfg : u.cfg = s.cfg)
    (hport : u.port = s.port) (hresults : u.results = s.results) (hframes : u.frames = s.frames ++ fs)
    (hlen : fs.length ≤ 5) : OnlyAppends s (flushed res u) where
  cfg := by rw [flushed_cfg, hcfg]
  port := by rw [flushed_port, hport]
  results := ⟨[res], by rw [flushed_results, hresults], le_rfl⟩
  frames := ⟨fs ++ rowFrames u.fb, by rw [flushed_frames, hframes, List.append_assoc], by
    rw [List.length_append]; exact Nat.add_le_add_right hlen 8⟩

/-- A flush alone, of a state that differs in none of the four fields. -/
theorem onlyAppends_flushed_of_same {s u : State} (res : Word) (hcfg : u.cfg = s.cfg) (hport : u.port = s.port)
    (hresults : u.results = s.results) (hframes : u.frames = s.frames) : OnlyAppends s (flushed res u) :=
  onlyAppends_flushed res hcfg hport hresults (fs := []) (by simpa using hframes) (by decide)

theorem execGeTick_onlyAppends {s t : State} (h : execGeTick s = .next t) : OnlyAppends s t := by
  have hrestart (cause : Cause) : OnlyAppends s (restarted cause s) :=
    onlyAppends_flushed_of_same _ rfl rfl rfl rfl
  obtain ⟨-, hoff | hgrew | hexhausted | hcollided | hmoved⟩ := execGeTick_cases h
  · obtain ⟨-, rfl⟩ := hoff; exact hrestart _
  · obtain ⟨p, -, -, -, rfl⟩ := hgrew; exact onlyAppends_flushed_of_same _ rfl rfl rfl rfl
  · obtain ⟨-, -, rfl⟩ := hexhausted; exact hrestart _
  · obtain ⟨c, -, -, -, rfl⟩ := hcollided; exact hrestart _
  · obtain ⟨c, -, -, -, -, rfl⟩ := hmoved; exact onlyAppends_flushed_of_same _ rfl rfl rfl rfl

theorem exec_onlyAppends {i : Instr} {s t : State} (h : exec i s = .next t) : OnlyAppends s t := by
  cases exec_effect h with
  | mdInit =>
    exact onlyAppends_flushed 0 (emitControlFrames_cfg s) (emitControlFrames_port s)
      (emitControlFrames_results s) (emitControlFrames_frames s) le_rfl
  | mdSetpix => exact ⟨rfl, rfl, ⟨[0], rfl, le_rfl⟩, ⟨[], by simp, by decide⟩⟩
  | mdGetpix => exact ⟨rfl, rfl, ⟨[_], rfl, le_rfl⟩, ⟨[], by simp, by decide⟩⟩
  | mdSetint => exact ⟨by simp, by simp, ⟨[0], rfl, le_rfl⟩, ⟨[_], emitFrame_frames _ _ s, by simp⟩⟩
  | mdShdn => exact ⟨by simp, by simp, ⟨[0], rfl, le_rfl⟩, ⟨[_], emitFrame_frames _ _ s, by simp⟩⟩
  | mdFlush => exact onlyAppends_flushed_of_same 0 rfl rfl rfl rfl
  | geReset => exact onlyAppends_flushed_of_same 0 rfl rfl rfl rfl
  | geSteer => exact ⟨rfl, rfl, ⟨[0], rfl, le_rfl⟩, ⟨[], by simp, by decide⟩⟩
  | geTick _ ht => exact execGeTick_onlyAppends ht
  | geBlink =>
    exact onlyAppends_flushed_of_same 0 (toggleFood_cfg s) (toggleFood_port s) (toggleFood_results s)
      (toggleFood_frames s)
  | geQuery => exact ⟨rfl, rfl, ⟨[_], rfl, le_rfl⟩, ⟨[], by simp, by decide⟩⟩
  | frame => exact ⟨by simp, by simp, ⟨[], by simp, by decide⟩, ⟨[_], emitFrame_frames _ _ s, by simp⟩⟩

/-- Settles O53: a step waits, or takes one word and runs an instruction, which only appends. -/
theorem stepOnlyAppendsToTheObservation : Obligations.StepOnlyAppendsToTheObservation := by
  unfold Obligations.StepOnlyAppendsToTheObservation
  intro s s' h
  obtain ⟨-, ⟨-, rfl⟩ | ⟨w, t, i, hf, -, hi⟩⟩ := step_cases h
  · exact ⟨rfl, .inl rfl, ⟨[], by simp, by decide⟩, ⟨[], by simp, by decide⟩⟩
  · obtain ⟨hcfg, hport, hresults, hframes⟩ := exec_onlyAppends hi
    rcases fetch_cases hf with ⟨f, -, -, rfl⟩ | ⟨-, c, rest, hp, -, rfl⟩
    · exact ⟨hcfg, .inl hport, hresults, hframes⟩
    · exact ⟨hcfg, .inr ⟨c, hp.trans (congrArg (c :: ·) hport.symm)⟩, hresults, hframes⟩

end Sys2Proof.Machine

/-! # The state (10_state.md): the writers of each element, the invariant between commands, the image of the game -/

namespace Sys2Proof.Machine

/-! ### Packed Positions -/

theorem pack_toNat (p : Pos) : (pack p).toNat = 16 * p.x.toNat + p.y.toNat := by
  have hy := p.y.isLt
  simp only [pack, BitVec.toNat_append]
  rw [← Nat.shiftLeft_add_eq_or_of_lt hy]
  simp only [Nat.shiftLeft_eq, BitVec.toNat_ofNat, Nat.zero_mod, Nat.zero_mul, Nat.zero_or, Nat.or_zero]
  omega

/-- The nibbles of a packed Position: `y` in bits [3:0], `x` in bits [7:4]. -/
theorem pack_getLsbD (p : Pos) (j : Nat) :
    (pack p).getLsbD j = if j < 4 then p.y.getLsbD j else p.x.getLsbD (j - 4) := by
  have hy : p.y.toNat < 2 ^ 4 := Nat.lt_of_lt_of_le p.y.isLt (by decide)
  have hbit := Nat.testBit_two_pow_mul_add p.x.toNat hy j
  rwa [show 2 ^ 4 * p.x.toNat + p.y.toNat = (pack p).toNat from (pack_toNat p).symm] at hbit

theorem pack_injective : Function.Injective pack := by
  intro p q h
  have hpack := congrArg BitVec.toNat h
  rw [pack_toNat, pack_toNat] at hpack
  have hp := p.y.isLt
  have hq := q.y.isLt
  have hx : p.x = q.x := BitVec.eq_of_toNat_eq (by omega)
  have hy : p.y = q.y := BitVec.eq_of_toNat_eq (by omega)
  exact congrArg₂ Pos.mk hx hy

/-- Settles O55: a packed Position is its two nibbles, and a coordinate has three bits. -/
theorem packedPosition : Obligations.PackedPosition := by
  unfold Obligations.PackedPosition
  intro p q
  exact ⟨pack_toNat p, (pack_getLsbD p 7).trans (BitVec.getLsbD_of_ge p.x 3 le_rfl),
    (pack_getLsbD p 3).trans (BitVec.getLsbD_of_ge p.y 3 le_rfl), pack_injective.eq_iff⟩

/-! ### The wire: every instruction sends frames and moves the lines in no other way -/

theorem sent_nil {s t : State} (hframes : t.frames = s.frames) (hlines : t.lines = s.lines) : Sent [] s t :=
  ⟨by simpa using hframes, hlines⟩

theorem sent_emitControlFrames (s : State) : Sent (controlFrames s.cfg) s (emitControlFrames s) :=
  sent_emitFrames _ s

theorem Sent.flushed {fs : List Frame} {s t : State} (k : Sent fs s t) (res : Word) :
    Sent (fs ++ rowFrames t.fb) s (flushed res t) :=
  k.trans (sent_flushed res t)

theorem exec_sent {i : Instr} {s t : State} (h : exec i s = .next t) : ∃ fs, Sent fs s t := by
  cases exec_effect h with
  | mdInit =>
    obtain ⟨hframes, hlines⟩ := sent_emitControlFrames s
    exact ⟨_, Sent.flushed ⟨by dsimp only; exact hframes, by dsimp only; exact hlines⟩ 0⟩
  | mdSetpix => exact ⟨[], sent_nil rfl rfl⟩
  | mdGetpix => exact ⟨[], sent_nil rfl rfl⟩
  | mdSetint level =>
    have hframe := sent_emitFrames [⟨0x0A, level &&& 0x0F⟩] s
    exact ⟨_, hframe.frames, hframe.lines⟩
  | mdShdn sd =>
    have hframe := sent_emitFrames [⟨0x0C, if sd then 0x00 else 0x01⟩] s
    exact ⟨_, hframe.frames, hframe.lines⟩
  | mdFlush => exact ⟨_, sent_flushed 0 s⟩
  | geReset => exact ⟨_, (sent_nil (construct_frames s) (construct_lines s)).flushed 0⟩
  | geSteer => exact ⟨[], sent_nil rfl rfl⟩
  | geTick _ ht => exact ⟨_, execGeTick_sent ht⟩
  | geBlink => exact ⟨_, (sent_nil (toggleFood_frames s) (toggleFood_lines s)).flushed 0⟩
  | geQuery => exact ⟨[], sent_nil rfl rfl⟩
  | frame _ addr data _ => exact ⟨_, sent_emitFrames [⟨addr, data⟩] s⟩

/-- Taking the next word sends nothing. -/
theorem fetch_sent_nil {s t : State} {w : InWord} (h : fetch s = some (w, t)) : Sent [] s t := by
  rcases fetch_cases h with ⟨f, -, -, rfl⟩ | ⟨-, c, rest, -, -, rfl⟩ <;> exact sent_nil rfl rfl

/-- Settles O23: a step waits, or sends frames, whose waveform continues the trace. -/
theorem linesFollowTheWaveform : Obligations.LinesFollowTheWaveform := by
  unfold Obligations.LinesFollowTheWaveform
  intro s s' hl h
  obtain ⟨-, ⟨-, rfl⟩ | ⟨w, t, i, hf, -, he⟩⟩ := step_cases h
  · exact hl
  · obtain ⟨fs, hs⟩ := exec_sent he
    exact (hl.sent (fetch_sent_nil hf)).sent hs

/-- Frames leave idle lines idle (10_state.md rule R25). -/
theorem runEvents_writeEvents_idle (fs : List Frame) {l : Lines} (hcs : l.cs = true) (hclk : l.clk = false) :
    (runEvents l (fs.flatMap writeEvents)).cs = true ∧ (runEvents l (fs.flatMap writeEvents)).clk = false := by
  induction fs generalizing l with
  | nil => exact ⟨hcs, hclk⟩
  | cons f fs ih =>
    rw [List.flatMap_cons, runEvents_append, runEvents_writeEvents]
    exact ih rfl rfl

/-! ### The writers of each element -/

/-- The ways a tick completes, the three restarts taken together, with what growth and motion know of their cells. -/
theorem execGeTick_outcome {s t : State} (h : execGeTick s = .next t) :
    (∃ cause, t = restarted cause s) ∨
    (∃ p, p ∉ s.food :: body s ∧ s.fbValid = true ∧ t = flushed codeGrew (commitGrow s.food p s)) ∨
    (∃ c, c ≠ s.food ∧ c ∉ body s ∧ s.fbValid = true ∧ t = flushed codeMoved (commitMove c s)) := by
  obtain ⟨-, ⟨-, rfl⟩ | ⟨p, -, hp, hv, rfl⟩ | ⟨-, -, rfl⟩ | ⟨c, -, -, -, rfl⟩ | ⟨c, -, hf, hb, hv, rfl⟩⟩ :=
    execGeTick_cases h
  · exact .inl ⟨_, rfl⟩
  · exact .inr (.inl ⟨p, (place_eq_accepted hp).1, hv, rfl⟩)
  · exact .inl ⟨_, rfl⟩
  · exact .inl ⟨_, rfl⟩
  · exact .inr (.inr ⟨c, hf, hb, hv, rfl⟩)

theorem execGeTick_geValid {s t : State} (h : execGeTick s = .next t) : t.geValid = s.geValid := by
  have hg := (execGeTick_cases h).1
  rcases execGeTick_outcome h with ⟨cause, rfl⟩ | ⟨p, -, -, rfl⟩ | ⟨c, -, -, -, rfl⟩ <;> simp [restarted, hg]

theorem execGeTick_fbValid {s t : State} (h : execGeTick s = .next t) : t.fbValid = true := by
  rcases execGeTick_outcome h with ⟨cause, rfl⟩ | ⟨p, -, hv, rfl⟩ | ⟨c, -, -, hv, rfl⟩
  · simp [restarted]
  · simpa using hv
  · simpa using hv

theorem execGeTick_sameInput {s t : State} (h : execGeTick s = .next t) : SameInput s t := by
  rcases execGeTick_outcome h with ⟨cause, rfl⟩ | ⟨p, -, -, rfl⟩ | ⟨c, -, -, -, rfl⟩ <;>
    constructor <;> simp [restarted]

theorem execGeTick_draws {s t : State} (h : execGeTick s = .next t) : t.draws = [] := by
  rcases execGeTick_outcome h with ⟨cause, rfl⟩ | ⟨p, -, -, rfl⟩ | ⟨c, -, -, -, rfl⟩ <;> rfl

theorem two_le_causeCode (cause : Cause) : 2 ≤ (causeCode cause).toNat := by
  cases cause <;> decide

/-- A tick that writes `pend`, `vis` or `gstate` is a restart (10_state.md rule R20). -/
theorem execGeTick_returned_of_restart_writes {s t : State} (h : execGeTick s = .next t)
    (hne : t.pend ≠ s.pend ∨ t.vis ≠ s.vis ∨ t.gstate ≠ s.gstate) :
    ∃ code : Word, Returned code s t ∧ 2 ≤ code.toNat := by
  rcases execGeTick_outcome h with ⟨cause, rfl⟩ | ⟨p, -, -, rfl⟩ | ⟨c, -, -, -, rfl⟩
  · exact ⟨causeCode cause, ⟨rfl, rfl⟩, two_le_causeCode cause⟩
  · simp at hne
  · simp at hne

section Writers

variable {i : Instr} {s t : State}

theorem snake_writers (h : exec i s = .next t)
    (hne : t.seg ≠ s.seg ∨ t.len ≠ s.len ∨ t.dir ≠ s.dir ∨ t.food ≠ s.food) : i = .geReset ∨ i = .geTick := by
  cases exec_effect h with
  | geReset => exact .inl rfl
  | geTick => exact .inr rfl
  | _ => simp at hne

theorem pend_writers (h : exec i s = .next t) (hne : t.pend ≠ s.pend) :
    i = .geReset ∨ i = .geTick ∨ ∃ x y, i = .geSteer x y := by
  cases exec_effect h with
  | geReset => exact .inl rfl
  | geTick => exact .inr (.inl rfl)
  | geSteer x y => exact .inr (.inr ⟨x, y, rfl⟩)
  | _ => simp at hne

theorem vis_writers (h : exec i s = .next t) (hne : t.vis ≠ s.vis) :
    i = .geReset ∨ i = .geBlink ∨ i = .geTick := by
  cases exec_effect h with
  | geReset => exact .inl rfl
  | geBlink => exact .inr (.inl rfl)
  | geTick => exact .inr (.inr rfl)
  | _ => simp at hne

theorem gstate_writers (h : exec i s = .next t) (hne : t.gstate ≠ s.gstate) : i = .geReset ∨ i = .geTick := by
  cases exec_effect h with
  | geReset => exact .inl rfl
  | geTick => exact .inr rfl
  | _ => simp at hne

theorem geValid_writers (h : exec i s = .next t) (hne : t.geValid ≠ s.geValid) : i = .geReset := by
  cases exec_effect h with
  | geReset => rfl
  | geTick _ ht => exact absurd (execGeTick_geValid ht) hne
  | _ => simp at hne

theorem fbValid_writers (h : exec i s = .next t) (hne : t.fbValid ≠ s.fbValid) :
    i = .mdInit ∨ i = .geReset ∨ i = .geTick := by
  cases exec_effect h with
  | mdInit => exact .inl rfl
  | geReset => exact .inr (.inl rfl)
  | geTick => exact .inr (.inr rfl)
  | _ => simp at hne

/-- Where a game implies a written framebuffer, a tick finds it written already. -/
theorem fbValid_writers_of_fb_written (hfb : s.geValid = true → s.fbValid = true) (h : exec i s = .next t)
    (hne : t.fbValid ≠ s.fbValid) : i = .mdInit ∨ i = .geReset := by
  rcases fbValid_writers h hne with hi | hi | rfl
  · exact .inl hi
  · exact .inr hi
  · have hg := (execGeTick_cases h).1
    exact absurd ((execGeTick_fbValid h).trans (hfb hg).symm) hne

theorem fb_writers (h : exec i s = .next t) (hne : t.fb ≠ s.fb) :
    i = .mdInit ∨ i = .geReset ∨ i = .geTick ∨ i = .geBlink ∨ ∃ r c on, i = .mdSetpix r c on := by
  cases exec_effect h with
  | mdInit => exact .inl rfl
  | geReset => exact .inr (.inl rfl)
  | geTick => exact .inr (.inr (.inl rfl))
  | geBlink => exact .inr (.inr (.inr (.inl rfl)))
  | mdSetpix r c on => exact .inr (.inr (.inr (.inr ⟨r, c, on, rfl⟩)))
  | _ => simp at hne

theorem exec_sameInput (h : exec i s = .next t) : SameInput s t := by
  cases exec_effect h with
  | geTick _ ht => exact execGeTick_sameInput ht
  | _ => constructor <;> simp

end Writers

/-- Settles O45: one lemma for each element's writers. -/
theorem onlyListedWritersChangeState : Obligations.OnlyListedWritersChangeState := by
  unfold Obligations.OnlyListedWritersChangeState
  intro s t i h
  refine ⟨snake_writers h, pend_writers h, vis_writers h, gstate_writers h, ?_, geValid_writers h,
    fun hfb => fbValid_writers_of_fb_written hfb h, fbValid_writers h, fb_writers h, exec_sent h, exec_sameInput h⟩
  rintro rfl
  exact execGeTick_returned_of_restart_writes h

/-! ### The game registers hold a game (10_state.md rules R28, R36, R37) -/

/-- `GameInv` speaks of six registers alone. -/
theorem GameInv.congr {s t : State} (g : GameInv s) (hseg : t.seg = s.seg) (hlen : t.len = s.len)
    (hdir : t.dir = s.dir) (hpend : t.pend = s.pend) (hfood : t.food = s.food) (hgstate : t.gstate = s.gstate) :
    GameInv t := by
  obtain ⟨hpos, hle, hdistinct, hoff, hok, hrunning⟩ := g
  constructor <;> simpa only [body, hseg, hlen, hdir, hpend, hfood, hgstate]

theorem GameInv.flushed {s : State} (g : GameInv s) (res : Word) : GameInv (flushed res s) := by
  apply g.congr <;> simp

theorem gameInv_construct {s : State} (hc : configValid s.cfg = true) : GameInv (construct s) := by
  obtain ⟨-, ⟨hpos, hle⟩, -, hnodup, hfood⟩ := configValid_iff.1 hc
  have hbody := body_construct hle
  exact {
    len_pos := hpos
    len_le := initLen_le_of_configValid hc
    distinct := by rw [hbody]; exact hnodup
    food_off := by rw [hbody]; exact hfood
    pend_ok := .inl rfl
    running := rfl }

theorem steerAxis_eq_some {cfg : Config} {sample : BitVec 12} {low high d : Dir}
    (h : steerAxis cfg sample low high = some d) : d = low ∨ d = high := by
  unfold steerAxis at h
  split at h
  · cases h; exact .inl rfl
  · split at h
    · cases h; exact .inr rfl
    · cases h

/-- A steer asks for a direction across the committed one alone (41_input_sampler.md rule R142). -/
theorem steerDir_perpendicular {cfg : Config} {committed d : Dir} {h v : BitVec 12}
    (hd : steerDir cfg committed h v = some d) : perpendicular d committed = true := by
  rw [perpendicular_iff]
  unfold steerDir at hd
  split at hd
  · rename_i hc
    rw [hc]
    rcases steerAxis_eq_some hd with rfl | rfl <;> decide
  · rename_i hc
    rw [Bool.eq_false_iff.2 hc]
    rcases steerAxis_eq_some hd with rfl | rfl <;> decide

theorem GameInv.steer {s : State} (g : GameInv s) (h v : BitVec 12) :
    GameInv { s with pend := (steerDir s.cfg s.dir h v).getD s.pend } := by
  obtain ⟨hpos, hle, hdistinct, hoff, hok, hrunning⟩ := g
  refine ⟨hpos, hle, hdistinct, hoff, ?_, hrunning⟩
  cases hd : steerDir s.cfg s.dir h v with
  | none => exact hok
  | some d => exact .inr (steerDir_perpendicular hd)

theorem commitGrow_len_toNat {s : State} (c p : Pos) (h : s.len.toNat ≤ 63) :
    (commitGrow c p s).len.toNat = s.len.toNat + 1 := by
  rw [commitGrow_len, BitVec.toNat_add]
  exact Nat.mod_eq_of_lt (by simp; omega)

/-- The accepted draw is a 65th cell unless at most 62 segments were live: growth stays within 63 segments. -/
theorem GameInv.commitGrow {s : State} {p : Pos} (g : GameInv s) (hp : p ∉ s.food :: body s) :
    GameInv (commitGrow s.food p s) := by
  have hbody := body_commitGrow s.food p g.len_le
  have hlen := commitGrow_len_toNat s.food p g.len_le
  have hnodup : (s.food :: body s).Nodup := List.nodup_cons.2 ⟨g.food_off, g.distinct⟩
  have hroom := length_le_of_nodup (List.nodup_cons.2 ⟨hp, hnodup⟩)
  simp only [List.length_cons, body_length (Nat.le_succ_of_le g.len_le)] at hroom
  exact {
    len_pos := by omega
    len_le := by omega
    distinct := by rw [hbody]; exact hnodup
    food_off := by rw [hbody]; exact hp
    pend_ok := .inl rfl
    running := g.running }

theorem GameInv.body_commitMove {s : State} (g : GameInv s) (c : Pos) :
    body (commitMove c s) = c :: (body s).dropLast :=
  Machine.body_commitMove c g.len_pos (Nat.le_succ_of_le g.len_le)

theorem GameInv.commitMove {s : State} {c : Pos} (g : GameInv s) (hfood : c ≠ s.food) (hc : c ∉ body s) :
    GameInv (commitMove c s) where
  len_pos := g.len_pos
  len_le := g.len_le
  distinct := by
    rw [g.body_commitMove]
    exact List.nodup_cons.2
      ⟨fun h => hc (List.mem_of_mem_dropLast h), g.distinct.sublist (List.dropLast_sublist _)⟩
  food_off := by
    rw [g.body_commitMove]
    exact List.not_mem_cons_of_ne_of_not_mem hfood.symm fun h => g.food_off (List.mem_of_mem_dropLast h)
  pend_ok := .inl rfl
  running := g.running

theorem execGeTick_keeps_gameInv {s t : State} (hc : configValid s.cfg = true) (g : GameInv s)
    (h : execGeTick s = .next t) : GameInv t := by
  rcases execGeTick_outcome h with ⟨cause, rfl⟩ | ⟨p, hp, -, rfl⟩ | ⟨c, hf, hb, -, rfl⟩
  · exact (gameInv_construct hc).flushed _
  · exact (g.commitGrow hp).flushed _
  · exact (g.commitMove hf hb).flushed _

theorem exec_keeps_gameInv {i : Instr} {s t : State} (h : exec i s = .next t) (hc : configValid s.cfg = true)
    (hg : s.geValid = true → GameInv s) (hv : t.geValid = true) : GameInv t := by
  cases exec_effect h with
  | geReset => exact (gameInv_construct hc).flushed 0
  | geSteer x y hs => exact ((hg hs).steer x y).congr rfl rfl rfl rfl rfl rfl
  | geTick _ ht => exact execGeTick_keeps_gameInv hc (hg (execGeTick_cases ht).1) ht
  | geBlink hs => apply (hg hs).congr <;> simp
  | _ => apply (hg (by simpa using hv)).congr <;> simp

/-- A game still implies a written framebuffer: what constructs a game writes it, and nothing unwrites it. -/
theorem exec_keeps_fb_written {i : Instr} {s t : State} (h : exec i s = .next t)
    (hfb : s.geValid = true → s.fbValid = true) (hv : t.geValid = true) : t.fbValid = true := by
  cases exec_effect h with
  | mdInit => simp
  | geReset => simp
  | geTick _ ht => exact execGeTick_fbValid ht
  | _ => simpa using hfb (by simpa using hv)

/-! ### A step between commands -/

/-- The operation code a command is spelled with (30_encoding.md rule R83); a frame has none. -/
def opcodeOf : Instr → Option (BitVec 4)
  | .mdInit => some 0x1
  | .mdSetpix _ _ _ => some 0x2
  | .mdGetpix _ _ => some 0x3
  | .mdSetint _ => some 0x4
  | .mdShdn _ => some 0x5
  | .mdFlush => some 0x6
  | .geReset => some 0x8
  | .geSteer _ _ => some 0x9
  | .geTick => some 0xA
  | .geBlink => some 0xB
  | .geQuery _ => some 0xC
  | _ => none

theorem decodeQuery_eq_ok {c : Word} {i : Instr} (h : decodeQuery c = .ok i) : ∃ sel, i = .geQuery sel := by
  unfold decodeQuery at h
  split at h
  · split at h
    · cases h
    · cases h; exact ⟨_, rfl⟩
  · cases h

/-- A command word decodes to a command of its own operation code, never to a frame. -/
theorem opcodeOf_of_decodeCommand {c : Word} {i : Instr} (h : decodeCommand c = .ok i) :
    opcodeOf i = some (opcode c) := by
  unfold decodeCommand at h
  split at h
  case h_11 hop =>
    obtain ⟨sel, rfl⟩ := decodeQuery_eq_ok h
    exact congrArg some (BitVec.eq_of_toNat_eq hop.symm)
  case h_12 => cases h
  all_goals
    rename_i hop
    obtain ⟨-, rfl⟩ := checkSbz_eq_ok h
    exact congrArg some (BitVec.eq_of_toNat_eq hop.symm)

theorem opcodeOf_of_encode_frame {i : Instr} {w : FrameWord} (h : encode i = .frame w) : opcodeOf i = none := by
  cases i <;> cases h <;> rfl

/-- With no frame put at the frame primitive, a step waits or runs the oldest command. -/
theorem Inv.step_cases {s s' : State} (hi : Inv s) (h : step s = .next s') :
    configValid s.cfg = true ∧ (s' = s ∨ ∃ c rest i, s.port = c :: rest ∧ opcodeOf i = some (opcode c.word) ∧
      exec i { s with port := rest, draws := c.draws } = .next s') := by
  obtain ⟨hc, ⟨-, hs⟩ | ⟨w, t, i, hf, hd, he⟩⟩ := Machine.step_cases h
  · exact ⟨hc, .inl hs⟩
  · rcases fetch_cases hf with ⟨f, hp, -, -⟩ | ⟨-, c, rest, hp, rfl, rfl⟩
    · rw [hi.no_frame] at hp; cases hp
    · exact ⟨hc, .inr ⟨c, rest, i, hp, opcodeOf_of_decodeCommand hd, he⟩⟩

/-- A command leaves no draw behind (42_game_state.md rule R162). -/
theorem exec_command_draws {i : Instr} {s t : State} {op : BitVec 4} (hop : opcodeOf i = some op)
    (h : exec i s = .next t) : t.draws = [] := by
  cases exec_effect h with
  | geTick _ ht => exact execGeTick_draws ht
  | frame _ _ _ hw => rw [opcodeOf_of_encode_frame hw] at hop; cases hop
  | _ => rfl

/-- Settles O48: each part of the invariant is kept by the command that runs; the lines stay idle because they move only
through frames. -/
theorem stepKeepsTheInvariant : Obligations.StepKeepsTheInvariant := by
  unfold Obligations.StepKeepsTheInvariant
  intro s s' hi h
  obtain ⟨hc, rfl | ⟨c, rest, i, -, hop, he⟩⟩ := hi.step_cases h
  · exact hi
  · obtain ⟨fs, hsent⟩ := exec_sent he
    have hidle := runEvents_writeEvents_idle fs hi.cs_high hi.clk_low
    exact {
      game := exec_keeps_gameInv he hc fun hv => (hi.game hv).congr rfl rfl rfl rfl rfl rfl
      fb_written := exec_keeps_fb_written he hi.fb_written
      cs_high := by rw [hsent.lines]; exact hidle.1
      clk_low := by rw [hsent.lines]; exact hidle.2
      no_draws := exec_command_draws hop he
      no_frame := (exec_sameInput he).pendingFrame.trans hi.no_frame }

/-! ### The framebuffer is the image of the game (10_state.md rule R39) -/

/-- `ImageOk` speaks of the framebuffer and four game registers alone. -/
theorem ImageOk.congr {s t : State} (k : ImageOk s) (hfb : t.fb = s.fb) (hseg : t.seg = s.seg) (hlen : t.len = s.len)
    (hfood : t.food = s.food) (hvis : t.vis = s.vis) : ImageOk t := by
  simpa only [ImageOk, body, hfb, hseg, hlen, hfood, hvis] using k

theorem ImageOk.flushed {s : State} (k : ImageOk s) (res : Word) : ImageOk (flushed res s) := by
  apply k.congr <;> simp

theorem imageOk_construct {s : State} (h : s.cfg.initLen.toNat ≤ 64) : ImageOk (construct s) := by
  intro p
  rw [(initialGame_construct h).image p, body_construct h]
  simp

/-- Settles O51: GE.RESET is a construction and a flush, and a construction paints the image. -/
theorem geResetMakesTheImage : Obligations.GeResetMakesTheImage := by
  unfold Obligations.GeResetMakesTheImage
  intro s hc
  have hlen := Nat.le_succ_of_le (initLen_le_of_configValid hc)
  exact ⟨_, execGeReset_eq s, (imageOk_construct hlen).flushed 0⟩

/-- Growth lights the head, on the old food, and gives the new food's cell, dark until then, the phase
(42_game_state.md rules R158, R161). -/
theorem ImageOk.commitGrow {s : State} {p : Pos} (k : ImageOk s) (g : GameInv s) (hp : p ∉ s.food :: body s) :
    ImageOk (commitGrow s.food p s) := by
  intro q
  rw [body_commitGrow s.food p g.len_le, commitGrow_fb, commitGrow_food, commitGrow_vis, fbPixelAt_fbSetAt,
    fbPixelAt_fbSetAt]
  by_cases hqp : q = p
  · subst hqp; simp [hp]
  · by_cases hqf : q = s.food
    · have hne : s.food ≠ p := fun e => hqp (hqf.trans e)
      simp [hqf, hne]
    · simp [hqf, hqp, k q]

/-- The tail is the last segment alone: a cell of the body is the tail or stays in it (42_game_state.md rule R160). -/
theorem GameInv.mem_dropLast_iff {s : State} (g : GameInv s) (q : Pos) :
    q ∈ (body s).dropLast ↔ q ∈ body s ∧ q ≠ tailOf s := by
  have hbody := body_eq_dropLast_tailOf g.len_pos (Nat.le_succ_of_le g.len_le)
  have htail : tailOf s ∉ (body s).dropLast := by
    have hnodup := g.distinct
    rw [hbody] at hnodup
    exact fun h => (List.nodup_append.1 hnodup).2.2 _ h _ (List.mem_singleton_self _) rfl
  have hmem : q ∈ body s ↔ q ∈ (body s).dropLast ∨ q = tailOf s := by
    conv_lhs => rw [hbody]
    simp
  rw [hmem]
  constructor
  · exact fun h => ⟨.inl h, fun e => htail (e ▸ h)⟩
  · exact fun ⟨h, hne⟩ => h.resolve_right hne

theorem GameInv.tailOf_mem {s : State} (g : GameInv s) : tailOf s ∈ body s :=
  List.mem_of_getLast? (tailOf_eq g.len_pos (Nat.le_succ_of_le g.len_le))

/-- The head is a segment, so it is never on the food. -/
theorem GameInv.headOf_ne_food {s : State} (g : GameInv s) : headOf s ≠ s.food := by
  have hmem := List.mem_of_head? (headOf_eq g.len_pos (Nat.le_succ_of_le g.len_le))
  exact fun h => g.food_off (h ▸ hmem)

/-- Motion clears the tail's cell, which is not the food's, and lights the new head (42_game_state.md rules R160,
R161). -/
theorem ImageOk.commitMove {s : State} (k : ImageOk s) (g : GameInv s) (c : Pos) : ImageOk (commitMove c s) := by
  intro q
  rw [g.body_commitMove, List.mem_cons, g.mem_dropLast_iff, commitMove_fb, commitMove_food, commitMove_vis,
    fbPixelAt_fbSetAt, fbPixelAt_fbSetAt]
  by_cases hqc : q = c
  · simp [hqc]
  · by_cases hqt : q = tailOf s
    · have hne : tailOf s ≠ s.food := fun h => g.food_off (h ▸ g.tailOf_mem)
      have hqc' : tailOf s ≠ c := fun e => hqc (hqt.trans e)
      simp [hqt, hqc', hne]
    · simp [hqc, hqt, k q]

/-- A blink writes the food's cell with the new phase, since the head is never on it (42_game_state.md rule R168). -/
theorem ImageOk.toggleFood {s : State} (k : ImageOk s) (g : GameInv s) : ImageOk (toggleFood s) := by
  have hbody : body (Machine.toggleFood s) = body s := by simp only [body, toggleFood_seg, toggleFood_len]
  intro q
  rw [hbody, toggleFood_fb, toggleFood_food, toggleFood_vis, if_pos g.headOf_ne_food, fbPixelAt_fbSetAt]
  by_cases hqf : q = s.food
  · simp [hqf, g.food_off]
  · simp [hqf, k q]

theorem execGeTick_keeps_image {s t : State} (hlen : s.cfg.initLen.toNat ≤ 64) (g : GameInv s) (k : ImageOk s)
    (h : execGeTick s = .next t) : ImageOk t := by
  rcases execGeTick_outcome h with ⟨cause, rfl⟩ | ⟨p, hp, -, rfl⟩ | ⟨c, -, -, -, rfl⟩
  · exact (imageOk_construct hlen).flushed _
  · exact (k.commitGrow g hp).flushed _
  · exact (k.commitMove g c).flushed _

theorem exec_keeps_image {i : Instr} {s t : State} (h : exec i s = .next t) (hlen : s.cfg.initLen.toNat ≤ 64)
    (g : GameInv s) (k : ImageOk s) (hinit : i ≠ .mdInit) (hsetpix : ∀ r c on, i ≠ .mdSetpix r c on) :
    ImageOk t := by
  cases exec_effect h with
  | mdInit => exact absurd rfl hinit
  | mdSetpix r c on => exact absurd rfl (hsetpix r c on)
  | geReset => exact (imageOk_construct hlen).flushed 0
  | geTick _ ht => exact execGeTick_keeps_image hlen g k ht
  | geBlink => exact (k.toggleFood g).flushed 0
  | _ => apply k.congr <;> simp

/-- Settles O50: the operation codes 1 and 2 are those of MD.INIT and MD.SETPIX, and every other command keeps the
image. -/
theorem stepKeepsTheImage : Obligations.StepKeepsTheImage := by
  unfold Obligations.StepKeepsTheImage
  intro s s' hi hv k hport h
  obtain ⟨hc, rfl | ⟨c, rest, i, hp, hop, he⟩⟩ := hi.step_cases h
  · exact k
  · obtain ⟨hne1, hne2⟩ := hport c rest hp
    have hinit : i ≠ .mdInit := by
      rintro rfl; exact hne1 (Option.some.inj hop).symm
    have hsetpix : ∀ r c on, i ≠ .mdSetpix r c on := by
      rintro r c on rfl; exact hne2 (Option.some.inj hop).symm
    exact exec_keeps_image he (Nat.le_succ_of_le (initLen_le_of_configValid hc))
      ((hi.game hv).congr rfl rfl rfl rfl rfl rfl) (k.congr rfl rfl rfl rfl rfl) hinit hsetpix

end Sys2Proof.Machine

/-! # Byte and bit order on the wire (20_memory.md): the order a frame's bits are sent in, and what a device on the wire
latches -/

namespace Sys2Proof.Machine

/-! ### The order of the bits (20_memory.md rules R64, R65) -/

@[simp] theorem frameBits_length (w : FrameWord) : (frameBits w).length = 16 := rfl

/-- Bit 15 is sent first (20_memory.md rule R64). -/
theorem frameBits_getElem? (w : FrameWord) {k : Nat} (hk : k < 16) :
    (frameBits w)[k]? = some (w.getLsbD (15 - k)) := by
  simp [frameBits, hk]

/-- Settles O24: bit `8 + c` of the wire order is bit `7 - c` of the data byte, the pixel of column `c`. -/
theorem columnZeroIsSentFirst : Obligations.ColumnZeroIsSentFirst := by
  unfold Obligations.ColumnZeroIsSentFirst
  intro fb r c
  have hc : c.toNat < 8 := c.isLt
  have hbit : 15 - (8 + c.toNat) = 7 - c.toNat := by omega
  rw [frameBits_getElem? _ (by omega), frameWord_getLsbD, hbit, if_pos (by omega), fbPixel]

/-! ### The receiver's shift register -/

theorem getLsbD_shiftIn_zero (w : FrameWord) (b : Bool) : (shiftIn w b).getLsbD 0 = b := by
  simp [shiftIn]

theorem getLsbD_shiftIn_succ (w : FrameWord) (b : Bool) {i : Nat} (hi : i + 1 < 16) :
    (shiftIn w b).getLsbD (i + 1) = w.getLsbD i := by
  simp [shiftIn, hi, Nat.lt_of_succ_lt hi]

/-- The last bit shifted in stands in bit 0, the one before it in bit 1, and above them what was there before. -/
theorem getLsbD_foldl_shiftIn (v : FrameWord) (bits : List Bool) {i : Nat} (hi : i < 16) :
    (bits.foldl shiftIn v).getLsbD i = bits.reverse[i]?.getD (v.getLsbD (i - bits.length)) := by
  induction bits using List.reverseRecOn generalizing i with
  | nil => simp
  | append_singleton bits b ih =>
    rw [List.foldl_concat, List.reverse_concat, List.length_append]
    cases i with
    | zero => exact getLsbD_shiftIn_zero _ b
    | succ i =>
      rw [getLsbD_shiftIn_succ _ b hi, ih (Nat.lt_of_succ_lt hi)]
      simp

/-- Sixteen bits in wire order fill the shift register with the frame, whatever it held (20_memory.md rule R64). -/
theorem foldl_shiftIn_frameBits (v w : FrameWord) : (frameBits w).foldl shiftIn v = w := by
  apply BitVec.eq_of_getLsbD_eq
  intro i hi
  have hbit : 15 - (16 - 1 - i) = i := by omega
  rw [getLsbD_foldl_shiftIn v _ hi, List.getElem?_reverse (by simpa using hi), frameBits_length,
    frameBits_getElem? w (by omega), hbit, Option.getD_some]

/-! ### The receiver on a waveform -/

theorem receiveAll_append (r : Receiver) (a b : List LineEvent) :
    receiveAll r (a ++ b) = receiveAll (receiveAll r a) b := List.foldl_append

/-- While the device is selected and the clock is low, the events of one bit shift that bit in. -/
theorem receiveAll_bitEvents (d b : Bool) (v : FrameWord) (ws : List FrameWord) :
    receiveAll ⟨⟨false, false, d⟩, v, ws⟩ (bitEvents b) = ⟨⟨false, false, b⟩, shiftIn v b, ws⟩ := rfl

theorem receiveAll_flatMap_bitEvents (bits : List Bool) (d : Bool) (v : FrameWord) (ws : List FrameWord) :
    receiveAll ⟨⟨false, false, d⟩, v, ws⟩ (bits.flatMap bitEvents) =
      ⟨⟨false, false, bits.getLastD d⟩, bits.foldl shiftIn v, ws⟩ := by
  induction bits generalizing d v with
  | nil => rfl
  | cons b bits ih =>
    rw [List.flatMap_cons, receiveAll_append, receiveAll_bitEvents, ih, List.getLastD_cons, List.foldl_cons]

/-- From idle lines a frame's waveform makes the device latch the frame's word, and leaves the lines idle. -/
theorem receiveAll_frameEvents (w : FrameWord) (d : Bool) (v : FrameWord) (ws : List FrameWord) :
    receiveAll ⟨⟨true, false, d⟩, v, ws⟩ (frameEvents w) = ⟨⟨true, false, w.getLsbD 0⟩, w, ws ++ [w]⟩ := by
  have hselect : receiveAll ⟨⟨true, false, d⟩, v, ws⟩ [.cs false] = ⟨⟨false, false, d⟩, v, ws⟩ := rfl
  have hlast : (frameBits w).getLastD d = w.getLsbD 0 := rfl
  have hlatch : receiveAll ⟨⟨false, false, w.getLsbD 0⟩, w, ws⟩ [.cs true] =
      ⟨⟨true, false, w.getLsbD 0⟩, w, ws ++ [w]⟩ := rfl
  rw [frameEvents, ← List.singleton_append, receiveAll_append, hselect, receiveAll_append,
    receiveAll_flatMap_bitEvents, hlast, foldl_shiftIn_frameBits, hlatch]

/-- Frame after frame from idle lines: the device latches the word of each, in order (40_matrix_driver.md rule R113). -/
theorem receiveAll_flatMap_writeEvents_latched (fs : List Frame) (d : Bool) (v : FrameWord) (ws : List FrameWord) :
    (receiveAll ⟨⟨true, false, d⟩, v, ws⟩ (fs.flatMap writeEvents)).latched =
      ws ++ fs.map (fun f => frameWord f.addr f.data) := by
  induction fs generalizing d v ws with
  | nil => exact (List.append_nil ws).symm
  | cons f fs ih =>
    rw [List.flatMap_cons, receiveAll_append, writeEvents, receiveAll_frameEvents, ih, List.map_cons,
      List.append_assoc, List.singleton_append]

/-- Settles O22: the device starts on idle lines with nothing latched, and the trace is the waveforms of the frames
sent. -/
theorem waveformCarriesTheFrames : Obligations.WaveformCarriesTheFrames := by
  unfold Obligations.WaveformCarriesTheFrames
  intro s
  exact receiveAll_flatMap_writeEvents_latched s.frames false 0 []

end Sys2Proof.Machine

/-! # Encodings (30_encoding.md): the fields of a word, the decoder against the encoder, what the decoder rejects, what a
command sends and returns, and the assembler's fields -/

namespace Sys2Proof

/-! ### The fields of an encoded word (30_encoding.md rules R81, R90) -/

theorem extractLsb'_eq_of_getLsbD {w n i : Nat} {c : BitVec w} {x : BitVec n}
    (h : ∀ j < n, c.getLsbD (i + j) = x.getLsbD j) : c.extractLsb' i n = x := by
  apply BitVec.eq_of_getLsbD_eq
  intro j hj
  simp [hj, h j hj]

@[simp] theorem wordP_row (op : BitVec 4) (row col : BitVec 3) (on : Bool) :
    (wordP op row col on).extractLsb' 8 3 = row := by
  apply extractLsb'_eq_of_getLsbD
  intro j hj
  rw [wordP_getLsbD]
  simp (disch := omega) only [if_pos, if_neg, Nat.add_sub_cancel_left]

@[simp] theorem wordP_col (op : BitVec 4) (row col : BitVec 3) (on : Bool) :
    (wordP op row col on).extractLsb' 4 3 = col := by
  apply extractLsb'_eq_of_getLsbD
  intro j hj
  rw [wordP_getLsbD]
  simp (disch := omega) only [if_pos, if_neg, Nat.add_sub_cancel_left]

theorem wordP_on (op : BitVec 4) (row col : BitVec 3) (on : Bool) : (wordP op row col on).getLsbD 0 = on :=
  wordP_getLsbD op row col on 0

@[simp] theorem wordPg_row (op : BitVec 4) (row col : BitVec 3) : (wordPg op row col).extractLsb' 8 3 = row := by
  apply extractLsb'_eq_of_getLsbD
  intro j hj
  rw [wordPg_getLsbD]
  simp (disch := omega) only [if_pos, if_neg, Nat.add_sub_cancel_left]

@[simp] theorem wordPg_col (op : BitVec 4) (row col : BitVec 3) : (wordPg op row col).extractLsb' 4 3 = col := by
  apply extractLsb'_eq_of_getLsbD
  intro j hj
  rw [wordPg_getLsbD]
  simp (disch := omega) only [if_pos, if_neg, Nat.add_sub_cancel_left]

@[simp] theorem wordB_field (op : BitVec 4) (field : Byte) : (wordB op field).extractLsb' 0 8 = field := by
  apply extractLsb'_eq_of_getLsbD
  intro j hj
  rw [wordB_getLsbD, Nat.zero_add, if_pos hj]

theorem wordF_flag (op : BitVec 4) (flag : Bool) : (wordF op flag).getLsbD 0 = flag := wordF_getLsbD op flag 0

@[simp] theorem wordS_h (op : BitVec 4) (h v : BitVec 12) : (wordS op h v).extractLsb' 12 12 = h := by
  apply extractLsb'_eq_of_getLsbD
  intro j hj
  rw [wordS_getLsbD]
  simp (disch := omega) only [if_pos, if_neg, Nat.add_sub_cancel_left]

@[simp] theorem wordS_v (op : BitVec 4) (h v : BitVec 12) : (wordS op h v).extractLsb' 0 12 = v := by
  apply extractLsb'_eq_of_getLsbD
  intro j hj
  rw [wordS_getLsbD, Nat.zero_add, if_pos hj]

/-! ### A word put together from its own fields (30_encoding.md rules R81, R82) -/

/-- A field that lies in the should-be-zero bits of a word that has none of them set. -/
theorem extractLsb'_of_sbz {c mask : Word} {i n : Nat} (h : c &&& mask = 0)
    (hmask : mask.extractLsb' i n = BitVec.allOnes n) : 0#n = c.extractLsb' i n := by
  rw [← BitVec.and_allOnes (x := c.extractLsb' i n), ← hmask, ← BitVec.extractLsb'_and, h]
  simp

theorem ofBool_getLsbD_zero (c : Word) : BitVec.ofBool (c.getLsbD 0) = c.extractLsb' 0 1 := by
  symm
  apply extractLsb'_eq_of_getLsbD
  intro j hj
  obtain rfl : j = 0 := by omega
  simp

section Reassembly

variable {c : Word} {op : BitVec 4}

theorem wordN_of_sbz (hop : opcode c = op) (h : c &&& 0x0FFFFFFF = 0) : wordN op = c := by
  rw [wordN, ← hop, opcode, extractLsb'_of_sbz (i := 0) h (by decide)]
  simp only [BitVec.extractLsb'_append_extractLsb'_eq_extractLsb', BitVec.extractLsb'_eq_self]

theorem wordP_of_sbz (hop : opcode c = op) (h : c &&& 0x0FFFF88E = 0) :
    wordP op (c.extractLsb' 8 3) (c.extractLsb' 4 3) (c.getLsbD 0) = c := by
  rw [wordP, ← hop, opcode, ofBool_getLsbD_zero, extractLsb'_of_sbz (i := 11) (n := 17) h (by decide),
    extractLsb'_of_sbz (i := 7) (n := 1) h (by decide), extractLsb'_of_sbz (i := 1) (n := 3) h (by decide)]
  simp only [BitVec.extractLsb'_append_extractLsb'_eq_extractLsb', BitVec.extractLsb'_eq_self]

theorem wordPg_of_sbz (hop : opcode c = op) (h : c &&& 0x0FFFF88F = 0) :
    wordPg op (c.extractLsb' 8 3) (c.extractLsb' 4 3) = c := by
  rw [wordPg, ← hop, opcode, extractLsb'_of_sbz (i := 11) (n := 17) h (by decide),
    extractLsb'_of_sbz (i := 7) (n := 1) h (by decide), extractLsb'_of_sbz (i := 0) (n := 4) h (by decide)]
  simp only [BitVec.extractLsb'_append_extractLsb'_eq_extractLsb', BitVec.extractLsb'_eq_self]

theorem wordB_of_sbz (hop : opcode c = op) (h : c &&& 0x0FFFFF00 = 0) : wordB op (c.extractLsb' 0 8) = c := by
  rw [wordB, ← hop, opcode, extractLsb'_of_sbz (i := 8) (n := 20) h (by decide)]
  simp only [BitVec.extractLsb'_append_extractLsb'_eq_extractLsb', BitVec.extractLsb'_eq_self]

theorem wordF_of_sbz (hop : opcode c = op) (h : c &&& 0x0FFFFFFE = 0) : wordF op (c.getLsbD 0) = c := by
  rw [wordF, ← hop, opcode, ofBool_getLsbD_zero, extractLsb'_of_sbz (i := 1) (n := 27) h (by decide)]
  simp only [BitVec.extractLsb'_append_extractLsb'_eq_extractLsb', BitVec.extractLsb'_eq_self]

theorem wordS_of_sbz (hop : opcode c = op) (h : c &&& 0x0F000000 = 0) :
    wordS op (c.extractLsb' 12 12) (c.extractLsb' 0 12) = c := by
  rw [wordS, ← hop, opcode, extractLsb'_of_sbz (i := 24) (n := 4) h (by decide)]
  simp only [BitVec.extractLsb'_append_extractLsb'_eq_extractLsb', BitVec.extractLsb'_eq_self]

end Reassembly

theorem frameWord_of_addr {w : FrameWord} {addr : Byte} (h : w.extractLsb' 8 8 = addr) :
    frameWord addr (w.extractLsb' 0 8) = w := by
  rw [frameWord, ← h]
  simp only [BitVec.extractLsb'_append_extractLsb'_eq_extractLsb', BitVec.extractLsb'_eq_self]

/-! ### Encode, then decode -/

/-- A word that keeps to a row with all of bits [31:28] fixed has that row's operation code. -/
theorem opcode_of_row {c mask value : Word} (h : c &&& mask = value) (hmask : opcode mask = BitVec.allOnes 4) :
    opcode c = opcode value := by
  unfold opcode at *
  rw [← h, BitVec.extractLsb'_and, hmask, BitVec.and_allOnes]

/-- A word that keeps to a row with the bits of `sbz` fixed to 0 has none of them set. -/
theorem sbz_of_row {c mask value sbz : Word} (h : c &&& mask = value) (hmask : mask &&& sbz = sbz)
    (hvalue : value &&& sbz = 0) : c &&& sbz = 0 := by
  rw [← hmask, ← BitVec.and_assoc, h, hvalue]

theorem decodeCommand_wordP (row col : BitVec 3) (on : Bool) :
    decodeCommand (wordP 0x2 row col on) = .ok (.mdSetpix row col on) := by
  have hrow : wordP 0x2 row col on &&& 0xFFFFF88E = 0x20000000 := Laws.TableRow.mdSetpix row col on
  rw [decodeCommand, opcode_of_row hrow (by decide), wordP_row, wordP_col, wordP_on]
  exact checkSbz_of_zero (sbz_of_row hrow (by decide) (by decide))

theorem decodeCommand_wordPg (row col : BitVec 3) :
    decodeCommand (wordPg 0x3 row col) = .ok (.mdGetpix row col) := by
  have hrow : wordPg 0x3 row col &&& 0xFFFFF88F = 0x30000000 := Laws.TableRow.mdGetpix row col
  rw [decodeCommand, opcode_of_row hrow (by decide), wordPg_row, wordPg_col]
  exact checkSbz_of_zero (sbz_of_row hrow (by decide) (by decide))

theorem decodeCommand_wordB (level : Byte) : decodeCommand (wordB 0x4 level) = .ok (.mdSetint level) := by
  have hrow : wordB 0x4 level &&& 0xFFFFFF00 = 0x40000000 := Laws.TableRow.mdSetint level
  rw [decodeCommand, opcode_of_row hrow (by decide), wordB_field]
  exact checkSbz_of_zero (sbz_of_row hrow (by decide) (by decide))

theorem decodeCommand_wordF (sd : Bool) : decodeCommand (wordF 0x5 sd) = .ok (.mdShdn sd) := by
  have hrow : wordF 0x5 sd &&& 0xFFFFFFFE = 0x50000000 := Laws.TableRow.mdShdn sd
  rw [decodeCommand, opcode_of_row hrow (by decide), wordF_flag]
  exact checkSbz_of_zero (sbz_of_row hrow (by decide) (by decide))

theorem decodeCommand_wordS (h v : BitVec 12) : decodeCommand (wordS 0x9 h v) = .ok (.geSteer h v) := by
  have hrow : wordS 0x9 h v &&& 0xFF000000 = 0x90000000 := Laws.TableRow.geSteer h v
  rw [decodeCommand, opcode_of_row hrow (by decide), wordS_h, wordS_v]
  exact checkSbz_of_zero (sbz_of_row hrow (by decide) (by decide))

/-- A query word is read back, or rejected for its selector alone. -/
theorem decodeCommand_wordQ (sel : Byte) : decodeCommand (wordB 0xC sel) =
    if selectorReserved sel then .error .reservedSelector else .ok (.geQuery sel) := by
  have hrow : wordB 0xC sel &&& 0xFFFFFF00 = 0xC0000000 := Laws.TableRow.geQuery sel
  have hsbz : wordB 0xC sel &&& 0x0FFFFF00 = 0 := sbz_of_row hrow (by decide) (by decide)
  rw [decodeCommand, opcode_of_row hrow (by decide)]
  exact (if_pos hsbz).trans (by rw [wordB_field])

theorem decode_encode (i : Instr) (hwf : i.wellFormed = true) : decode (encode i) = .ok i := by
  cases i with
  | mdSetpix row col on => exact decodeCommand_wordP row col on
  | mdGetpix row col => exact decodeCommand_wordPg row col
  | mdSetint level => exact decodeCommand_wordB level
  | mdShdn sd => exact decodeCommand_wordF sd
  | geSteer h v => exact decodeCommand_wordS h v
  | geQuery sel =>
    have hsel : selectorReserved sel = false := by rw [selectorReserved_eq, Bool.not_eq_false']; exact hwf
    exact (decodeCommand_wordQ sel).trans (by rw [hsel]; rfl)
  | mdInit | mdFlush | geReset | geTick | geBlink => rfl
  | _ data => rw [encode, decode, decodeFrame, frameWord_addr, frameWord_data]; rfl

/-! ### Decode, then encode -/

theorem encode_of_decodeFrame {w : FrameWord} {i : Instr} (h : decodeFrame w = .ok i) :
    encode i = .frame w ∧ i.wellFormed = true := by
  unfold decodeFrame at h
  split at h
  case h_14 => cases h
  all_goals
    rename_i haddr
    cases h
    exact ⟨congrArg InWord.frame (frameWord_of_addr (BitVec.eq_of_toNat_eq haddr)), rfl⟩

theorem encode_of_decodeQuery {c : Word} {i : Instr} (hop : opcode c = 0xC) (h : decodeQuery c = .ok i) :
    encode i = .command c ∧ i.wellFormed = true := by
  unfold decodeQuery at h
  split at h
  · rename_i hsbz
    split at h
    · cases h
    · rename_i hsel
      rw [selectorReserved_eq, Bool.not_eq_true', Bool.not_eq_false] at hsel
      cases h
      exact ⟨congrArg InWord.command (wordB_of_sbz hop hsbz), hsel⟩
  · cases h

theorem encode_of_decodeCommand {c : Word} {i : Instr} (h : decodeCommand c = .ok i) :
    encode i = .command c ∧ i.wellFormed = true := by
  unfold decodeCommand at h
  split at h
  case h_11 hop => exact encode_of_decodeQuery (BitVec.eq_of_toNat_eq hop) h
  case h_12 => cases h
  all_goals
    rename_i hop
    obtain ⟨hsbz, rfl⟩ := checkSbz_eq_ok h
    refine ⟨congrArg InWord.command ?_, rfl⟩
  case h_1 => exact wordN_of_sbz (BitVec.eq_of_toNat_eq hop) hsbz
  case h_2 => exact wordP_of_sbz (BitVec.eq_of_toNat_eq hop) hsbz
  case h_3 => exact wordPg_of_sbz (BitVec.eq_of_toNat_eq hop) hsbz
  case h_4 => exact wordB_of_sbz (BitVec.eq_of_toNat_eq hop) hsbz
  case h_5 => exact wordF_of_sbz (BitVec.eq_of_toNat_eq hop) hsbz
  case h_8 => exact wordS_of_sbz (BitVec.eq_of_toNat_eq hop) hsbz
  all_goals exact wordN_of_sbz (BitVec.eq_of_toNat_eq hop) hsbz

theorem encode_of_decode {w : InWord} {i : Instr} (h : decode w = .ok i) :
    encode i = w ∧ i.wellFormed = true := by
  cases w with
  | command c => exact encode_of_decodeCommand h
  | frame w => exact encode_of_decodeFrame h

/-! ### What the decoder rejects (30_encoding.md rules R82, R84, R89, R93) -/

theorem checkSbz_eq_reservedBits_iff {mask c : Word} {i : Instr} :
    checkSbz mask c i = .error .reservedBits ↔ c &&& mask ≠ 0 := by
  unfold checkSbz
  split
  · rename_i h; exact iff_of_false nofun (not_not_intro h)
  · rename_i h; exact iff_of_true rfl h

theorem checkSbz_ne_reservedOp (mask c : Word) (i : Instr) : checkSbz mask c i ≠ .error .reservedOp := by
  unfold checkSbz
  split <;> nofun

theorem decodeQuery_eq_reservedBits_iff {c : Word} :
    decodeQuery c = .error .reservedBits ↔ c &&& 0x0FFFFF00 ≠ 0 := by
  unfold decodeQuery
  split
  · rename_i h; split <;> exact iff_of_false nofun (not_not_intro h)
  · rename_i h; exact iff_of_true rfl h

theorem decodeQuery_ne_reservedOp (c : Word) : decodeQuery c ≠ .error .reservedOp := by
  unfold decodeQuery
  split
  · split <;> nofun
  · nofun

theorem decodeCommand_eq_reservedOp_iff {c : Word} :
    decodeCommand c = .error .reservedOp ↔ opcode c ∈ ([0x0, 0x7, 0xD, 0xE, 0xF] : List (BitVec 4)) := by
  simp only [List.mem_cons, List.not_mem_nil, or_false, BitVec.toNat_eq, BitVec.toNat_ofNat, BitVec.ofNat_eq_ofNat]
  have hlt := (opcode c).isLt
  unfold decodeCommand
  split
  case h_11 hop => exact iff_of_false (decodeQuery_ne_reservedOp c) (by omega)
  case h_12 => refine iff_of_true rfl ?_; simp only [imp_false] at *; omega
  all_goals exact iff_of_false (checkSbz_ne_reservedOp _ c _) (by omega)

/-- The should-be-zero bits of each operation code's format (30_encoding.md rule R81). -/
def sbzMasks : List (BitVec 4 × Word) :=
  [(0x1, 0x0FFFFFFF), (0x2, 0x0FFFF88E), (0x3, 0x0FFFF88F), (0x4, 0x0FFFFF00), (0x5, 0x0FFFFFFE), (0x6, 0x0FFFFFFF),
    (0x8, 0x0FFFFFFF), (0x9, 0x0F000000), (0xA, 0x0FFFFFFF), (0xB, 0x0FFFFFFF), (0xC, 0x0FFFFF00)]

theorem decodeCommand_eq_reservedBits_iff {c mask : Word} (h : (opcode c, mask) ∈ sbzMasks) :
    decodeCommand c = .error .reservedBits ↔ c &&& mask ≠ 0 := by
  simp only [sbzMasks, List.mem_cons, Prod.mk.injEq, List.not_mem_nil, or_false] at h
  rcases h with h | h | h | h | h | h | h | h | h | h | h
  all_goals
    obtain ⟨hop, rfl⟩ := h
    rw [decodeCommand, hop]
  on_goal 11 => exact decodeQuery_eq_reservedBits_iff
  all_goals exact checkSbz_eq_reservedBits_iff

theorem selectorReserved_iff {sel : Byte} :
    selectorReserved sel = true ↔ (0x07 ≤ sel.toNat ∧ sel.toNat ≤ 0x3F) ∨ 0x88 ≤ sel.toNat := by
  simp [selectorReserved]

theorem decodeCommand_wordQ_eq_reservedSelector_iff {sel : Byte} :
    decodeCommand (wordB 0xC sel) = .error .reservedSelector ↔ selectorReserved sel = true := by
  rw [decodeCommand_wordQ]
  split <;> simp [*]

theorem decodeFrame_frameWord_eq_error_iff {addr data : Byte} :
    decodeFrame (frameWord addr data) = .error .unusedFrameAddress ↔
      addr = 0x00 ∨ addr = 0x0D ∨ addr = 0x0E ∨ 0x10 ≤ addr.toNat := by
  simp only [BitVec.toNat_eq, BitVec.toNat_ofNat, BitVec.ofNat_eq_ofNat]
  rw [decodeFrame, frameWord_addr]
  split
  case h_14 => refine iff_of_true rfl ?_; simp only [imp_false] at *; omega
  all_goals exact iff_of_false nofun (by omega)

end Sys2Proof

namespace Sys2Proof.Machine

/-! ### The decoder and the encoder are inverse -/

/-- Settles O1: one lemma a format, from the fixed bits of its row and the fields of its word. -/
theorem decodeOfEncode : Obligations.DecodeOfEncode := by
  unfold Obligations.DecodeOfEncode
  exact decode_encode

/-- Settles O2: with its should-be-zero bits 0, a word is its own fields put together. -/
theorem encodeOfDecode : Obligations.EncodeOfDecode := by
  unfold Obligations.EncodeOfDecode
  exact fun _ _ h => encode_of_decode h

/-- Settles O7: each word is the encoder's word of its instruction. -/
theorem specWordsDecode : Obligations.SpecWordsDecode := by
  unfold Obligations.SpecWordsDecode
  exact ⟨decode_encode .mdInit rfl, decode_encode (.mdSetpix 2 5 true) rfl, decode_encode (.mdGetpix 2 5) rfl,
    decode_encode (.mdSetint 20) rfl, decode_encode (.mdShdn true) rfl, decode_encode .mdFlush rfl,
    decode_encode .geReset rfl, decode_encode (.geSteer 512 1023) rfl, decode_encode .geTick rfl,
    decode_encode .geBlink rfl, decode_encode (.geQuery 0x43) rfl, decode_encode (.frameRow1 0x70) rfl,
    decode_encode (.frameIntensity 0x08) rfl, decode_encode (.frameShutdown 0x01) rfl,
    decode_encode (.frameScanlimit 0x07) rfl⟩

/-! ### A step refuses what the decoder rejects -/

theorem step_of_port_error {s : State} {c : HostCommand} {rest : List HostCommand} {r : Reject}
    (hc : configValid s.cfg = true) (hn : s.pendingFrame = none) (hp : s.port = c :: rest)
    (hd : decode (.command c.word) = .error r) : step s = .refused (refusalOf r) := by
  rw [step_of_fetch hc (fetch_of_port hn hp), runWord_of_error _ hd]

theorem step_of_pendingFrame_error {s : State} {w : FrameWord} {r : Reject} (hc : configValid s.cfg = true)
    (hw : s.pendingFrame = some w) (hd : decode (.frame w) = .error r) : step s = .refused (refusalOf r) := by
  rw [step_of_fetch hc (fetch_of_pendingFrame hw), runWord_of_error _ hd]

/-- Settles O3: the decoder's last branch is taken at exactly these codes, and no other branch rejects for the code. -/
theorem reservedOperationCodeRefused : Obligations.ReservedOperationCodeRefused := by
  unfold Obligations.ReservedOperationCodeRefused
  intro s c rest hc hn hp
  exact ⟨decodeCommand_eq_reservedOp_iff,
    fun hop => step_of_port_error hc hn hp (decodeCommand_eq_reservedOp_iff.2 hop)⟩

/-- Settles O4: the decoder checks the mask of the word's operation code before anything else. -/
theorem nonzeroReservedBitRefused : Obligations.NonzeroReservedBitRefused := by
  unfold Obligations.NonzeroReservedBitRefused
  intro s c rest mask hc hn hp hmask
  have hbits := decodeCommand_eq_reservedBits_iff hmask
  exact ⟨hbits, fun h => step_of_port_error hc hn hp (hbits.2 h)⟩

theorem selectorOf_eq_none_iff {sel : Byte} : selectorOf sel = none ↔ selectorReserved sel = true := by
  revert sel; decide

theorem execGeQuery_eq_refused_iff {sel : Byte} {s : State} :
    execGeQuery sel s = .refused .reservedSelector ↔ selectorReserved sel = true := by
  rw [← selectorOf_eq_none_iff]
  unfold execGeQuery
  split
  · rename_i hsel; exact iff_of_true rfl hsel
  all_goals
    rename_i hsel
    rw [hsel]
    split <;> exact iff_of_false nofun nofun

/-- Settles O5: the decoder and the command both test for the reserved selectors. -/
theorem reservedSelectorRefused : Obligations.ReservedSelectorRefused := by
  unfold Obligations.ReservedSelectorRefused
  simp only [← selectorReserved_iff]
  refine ⟨fun s sel => ⟨decodeCommand_wordQ_eq_reservedSelector_iff, execGeQuery_eq_refused_iff⟩, ?_⟩
  intro s c rest sel hc hn hp hw hsel
  have hd : decode (.command c.word) = .error .reservedSelector := by
    rw [hw]; exact decodeCommand_wordQ_eq_reservedSelector_iff.2 hsel
  exact step_of_port_error hc hn hp hd

/-- Settles O6: the decoder's last branch is taken at exactly these addresses. -/
theorem unusedFrameAddressRejected : Obligations.UnusedFrameAddressRejected := by
  unfold Obligations.UnusedFrameAddressRejected
  exact ⟨fun _ _ => decodeFrame_frameWord_eq_error_iff, fun _ _ _ hc hw haddr =>
    step_of_pendingFrame_error hc hw (decodeFrame_frameWord_eq_error_iff.2 haddr)⟩

/-! ### What a command sends (30_encoding.md rule R93) -/

/-- A frame of the register map; one to decode-mode, scan-limit or display-test from MD.INIT alone. -/
def ListedFor (i : Instr) (f : Frame) : Prop :=
  sentByBlock f = true ∧ (f.addr = 0x09 ∨ f.addr = 0x0B ∨ f.addr = 0x0F → i = .mdInit)

/-- What an instruction sends between two states is listed for it. -/
def SendsListed (i : Instr) (s t : State) : Prop := ∃ fs, t.frames = s.frames ++ fs ∧ ∀ f ∈ fs, ListedFor i f

theorem listedFor_of_mem_rowFrames (i : Instr) {fb : Framebuffer} {f : Frame} (h : f ∈ rowFrames fb) :
    ListedFor i f := by
  have hall : ∀ f ∈ rowFrames fb, ListedFor i f := by simp [rowFrames, ListedFor, sentByBlock]
  exact hall f h

/-- The intensity register is sent four bits at most (30_encoding.md rule R92). -/
theorem listedFor_intensity (i : Instr) (level : Byte) : ListedFor i ⟨0x0A, level &&& 0x0F⟩ := by
  simp [ListedFor, sentByBlock, Nat.and_le_right]

theorem listedFor_shutdown (i : Instr) (sd : Bool) : ListedFor i ⟨0x0C, if sd then 0x00 else 0x01⟩ := by
  cases sd <;> simp [ListedFor, sentByBlock]

theorem listedFor_of_mem_controlFrames {cfg : Config} {f : Frame} (h : f ∈ controlFrames cfg) :
    ListedFor .mdInit f := by
  refine ⟨?_, fun _ => rfl⟩
  simp only [controlFrames, List.mem_cons, List.not_mem_nil, or_false] at h
  rcases h with rfl | rfl | rfl | rfl | rfl
  · rfl
  · rfl
  · rfl
  · exact (listedFor_intensity .mdInit _).1
  · rfl

theorem sendsListed_of_same {i : Instr} {s t : State} (h : t.frames = s.frames) : SendsListed i s t :=
  ⟨[], by simpa using h, by simp⟩

theorem sendsListed_flushed {i : Instr} {s t : State} (res : Word) (h : SendsListed i s t) :
    SendsListed i s (flushed res t) := by
  obtain ⟨fs, hframes, hall⟩ := h
  refine ⟨fs ++ rowFrames t.fb, by rw [flushed_frames, hframes, List.append_assoc], fun f hf => ?_⟩
  exact (List.mem_append.1 hf).elim (hall f) (listedFor_of_mem_rowFrames i)

theorem exec_sendsListed {i : Instr} {s t : State} {c : Word} (hcommand : encode i = .command c)
    (h : exec i s = .next t) : SendsListed i s t := by
  cases exec_effect h with
  | mdInit =>
    exact sendsListed_flushed 0 ⟨_, emitControlFrames_frames s, fun _ => listedFor_of_mem_controlFrames⟩
  | mdSetint level => exact ⟨_, emitFrame_frames _ _ s, by simpa using listedFor_intensity _ level⟩
  | mdShdn sd => exact ⟨_, emitFrame_frames _ _ s, by simpa using listedFor_shutdown _ sd⟩
  | mdFlush | geReset => exact sendsListed_flushed 0 (sendsListed_of_same rfl)
  | geTick _ ht => exact ⟨_, (execGeTick_sent ht).frames, fun _ => listedFor_of_mem_rowFrames _⟩
  | geBlink => exact sendsListed_flushed 0 (sendsListed_of_same (toggleFood_frames s))
  | frame _ _ _ hframe => rw [hframe] at hcommand; cases hcommand
  | mdSetpix | mdGetpix | geSteer | geQuery => exact sendsListed_of_same rfl

/-- Settles O25: rows, intensity and shutdown are in the register map, and only MD.INIT sends the other three. -/
theorem commandsSendOnlyListedFrames : Obligations.CommandsSendOnlyListedFrames := by
  unfold Obligations.CommandsSendOnlyListedFrames
  exact fun _ _ _ _ => exec_sendsListed

/-! ### What a command returns (30_encoding.md rules R86, R87) -/

theorem causeCode_le_four (cause : Cause) : (causeCode cause).toNat ≤ 4 := by
  cases cause <;> decide

theorem execGeTick_returned {s t : State} (h : execGeTick s = .next t) :
    ∃ res : Word, Returned res s t ∧ res.toNat ≤ 4 := by
  rcases execGeTick_outcome h with ⟨cause, rfl⟩ | ⟨p, -, -, rfl⟩ | ⟨c, -, -, -, rfl⟩
  · exact ⟨causeCode cause, ⟨rfl, rfl⟩, causeCode_le_four cause⟩
  · exact ⟨codeGrew, ⟨rfl, rfl⟩, by decide⟩
  · exact ⟨codeMoved, ⟨rfl, rfl⟩, by decide⟩

/-- Settles O44: the inversion of each command names its result word. -/
theorem everyCommandReturnsOneWord : Obligations.EveryCommandReturnsOneWord := by
  unfold Obligations.EveryCommandReturnsOneWord
  intro s t i c hcommand h
  cases exec_effect h with
  | mdGetpix row col =>
    refine ⟨_, ⟨rfl, rfl⟩, .inl ⟨⟨row, col, rfl⟩, ?_⟩⟩
    cases fbPixel s.fb row col <;> decide
  | geTick _ ht =>
    obtain ⟨res, hres, hle⟩ := execGeTick_returned ht
    exact ⟨res, hres, .inr (.inl ⟨rfl, hle⟩)⟩
  | geQuery sel q =>
    refine ⟨_, ⟨rfl, rfl⟩, .inr (.inr (.inl ⟨⟨sel, rfl⟩, ?_⟩))⟩
    rw [BitVec.toNat_setWidth_of_le (by decide)]
    exact Nat.le_of_lt_succ (queryValue s q).isLt
  | frame _ _ _ hframe => rw [hframe] at hcommand; cases hcommand
  | mdInit | geBlink => exact ⟨0, ⟨by simp, rfl⟩, .inr (.inr (.inr rfl))⟩
  | _ => exact ⟨0, ⟨rfl, rfl⟩, .inr (.inr (.inr rfl))⟩

/-! ### The assembler (30_encoding.md rules R85, R94) -/

/-- A field of `w` bits takes the numbers up to its largest (30_encoding.md rule R85). -/
theorem fieldOf_eq {w max : Nat} (hmax : max + 1 = 2 ^ w) (n : Nat) :
    fieldOf w n = if n ≤ max then some (BitVec.ofNat w n) else none := by
  simp only [fieldOf, ← hmax, Nat.lt_succ_iff]

theorem getLsbD_ofNat_one {n : Nat} (h : n ≤ 1) : (BitVec.ofNat 1 n).getLsbD 0 = (n == 1) := by
  interval_cases n <;> rfl

theorem commandOf_mdSetpix (row col on : Nat) : commandOf "md.setpix" [row, col, on] =
    if row ≤ 7 ∧ col ≤ 7 ∧ on ≤ 1 then some (.mdSetpix (BitVec.ofNat 3 row) (BitVec.ofNat 3 col) (on == 1))
    else none := by
  simp only [commandOf, fieldOf_eq (max := 7) (w := 3) rfl, fieldOf_eq (max := 1) (w := 1) rfl]
  by_cases hrow : row ≤ 7
  · by_cases hcol : col ≤ 7
    · by_cases hon : on ≤ 1
      · simp only [hrow, hcol, hon, if_true, and_self, getLsbD_ofNat_one hon]
      · simp [hon]
    · simp [hcol]
  · simp [hrow]

theorem commandOf_mdGetpix (row col : Nat) : commandOf "md.getpix" [row, col] =
    if row ≤ 7 ∧ col ≤ 7 then some (.mdGetpix (BitVec.ofNat 3 row) (BitVec.ofNat 3 col)) else none := by
  simp only [commandOf, fieldOf_eq (max := 7) (w := 3) rfl]
  by_cases hrow : row ≤ 7
  · by_cases hcol : col ≤ 7
    · simp [hrow, hcol]
    · simp [hcol]
  · simp [hrow]

theorem commandOf_geSteer (h v : Nat) : commandOf "ge.steer" [h, v] =
    if h ≤ 4095 ∧ v ≤ 4095 then some (.geSteer (BitVec.ofNat 12 h) (BitVec.ofNat 12 v)) else none := by
  simp only [commandOf, fieldOf_eq (max := 4095) (w := 12) rfl]
  by_cases hh : h ≤ 4095
  · by_cases hv : v ≤ 4095
    · simp [hh, hv]
    · simp [hv]
  · simp [hh]

theorem commandOf_mdShdn (sd : Nat) :
    commandOf "md.shdn" [sd] = if sd ≤ 1 then some (.mdShdn (sd == 1)) else none := by
  simp only [commandOf, fieldOf_eq (max := 1) (w := 1) rfl]
  split
  · rename_i h; simp only [Option.map_some, getLsbD_ofNat_one h]
  · rfl

theorem commandOf_mdSetint (level : Nat) :
    commandOf "md.setint" [level] = if level ≤ 255 then some (.mdSetint (BitVec.ofNat 8 level)) else none := by
  simp only [commandOf, fieldOf_eq (max := 255) (w := 8) rfl]
  split <;> rfl

theorem commandOf_geQuery (sel : Nat) :
    commandOf "ge.query" [sel] = if sel ≤ 255 then some (.geQuery (BitVec.ofNat 8 sel)) else none := by
  simp only [commandOf, fieldOf_eq (max := 255) (w := 8) rfl]
  split <;> rfl

/-- Settles O58: each mnemonic's operands are numbers in its fields. -/
theorem assemblerChecksTheFields : Obligations.AssemblerChecksTheFields := by
  unfold Obligations.AssemblerChecksTheFields
  exact ⟨⟨rfl, rfl, rfl, rfl, rfl⟩, commandOf_mdSetpix, commandOf_mdGetpix, commandOf_mdSetint, commandOf_mdShdn,
    commandOf_geSteer, commandOf_geQuery⟩

end Sys2Proof.Machine

/-! # The matrix driver (40_matrix_driver.md): each of its commands, pixels set and read, the flush, and the waveform of
one register write -/

namespace Sys2Proof.Machine

/-! ### The end of a command, and what the driver's commands leave of the game -/

/-- The state `finish` leaves. -/
def ended (res : Word) (s : State) : State := { s with results := s.results ++ [res], draws := [] }

theorem finish_eq (res : Word) (s : State) : finish res s = .next (ended res s) := rfl

theorem returned_ended {s u : State} (res : Word) (h : u.results = s.results) : Returned res s (ended res u) :=
  ⟨by rw [← h]; rfl, rfl⟩

theorem flushed_eq_ended (res : Word) (s : State) : flushed res s = ended res (emitRows s) := by
  rw [ended, emitRows_results, flushed]

theorem returned_flushed {s u : State} (res : Word) (h : u.results = s.results) : Returned res s (flushed res u) :=
  ⟨by rw [flushed_results, h], flushed_draws res u⟩

theorem Sent.ended {fs : List Frame} {s t : State} (k : Sent fs s t) (res : Word) : Sent fs s (ended res t) :=
  ⟨k.frames, k.lines⟩

/-- The instructions with a game register to write (10_state.md rule R20). -/
def writesGame : Instr → Bool
  | .geReset | .geSteer _ _ | .geTick | .geBlink => true
  | _ => false

/-- The driver's commands, the frames and a query leave the game as it is (40_matrix_driver.md rule R123). -/
theorem exec_sameGame {i : Instr} {s t : State} (h : exec i s = .next t) (hi : writesGame i = false) :
    SameGame s t := by
  cases exec_effect h with
  | geReset | geSteer | geTick | geBlink => cases hi
  | _ => constructor <;> simp

/-! ### Each command's next state (40_matrix_driver.md rules R115 to R120) -/

/-- What MD.INIT flushes: the control frames sent, and every row cleared. -/
def cleared (s : State) : State := { emitControlFrames s with fb := fbClear, fbValid := true }

theorem cleared_frames (s : State) : (cleared s).frames = (emitControlFrames s).frames := by simp only [cleared]

theorem cleared_lines (s : State) : (cleared s).lines = (emitControlFrames s).lines := by simp only [cleared]

theorem sent_cleared (s : State) : Sent (controlFrames s.cfg) s (cleared s) := by
  obtain ⟨hframes, hlines⟩ := sent_emitControlFrames s
  exact ⟨(cleared_frames s).trans hframes, (cleared_lines s).trans hlines⟩

/-- The result word of a pixel read (40_matrix_driver.md rule R117). -/
def pixelWord (fb : Framebuffer) (row col : BitVec 3) : Word := (BitVec.ofBool (fbPixel fb row col)).setWidth 32

theorem pixelWord_eq_ite (fb : Framebuffer) (row col : BitVec 3) :
    pixelWord fb row col = if fbPixel fb row col = true then 1 else 0 := by
  unfold pixelWord
  cases fbPixel fb row col <;> rfl

section Commands

variable (s : State)

theorem exec_mdInit : exec .mdInit s = .next (flushed 0 (cleared s)) := execMdInit_eq s

theorem exec_mdSetpix (row col : BitVec 3) (on : Bool) :
    exec (.mdSetpix row col on) s = .next (ended 0 (setPixel row col on s)) := rfl

theorem exec_mdSetint (level : Byte) :
    exec (.mdSetint level) s = .next (ended 0 (emitFrame 0x0A (level &&& 0x0F) s)) := rfl

theorem exec_mdShdn (sd : Bool) :
    exec (.mdShdn sd) s = .next (ended 0 (emitFrame 0x0C (if sd = true then 0x00 else 0x01) s)) := rfl

variable {s}

theorem exec_mdGetpix (row col : BitVec 3) (hv : s.fbValid = true) :
    exec (.mdGetpix row col) s = .next (ended (pixelWord s.fb row col) s) := if_pos hv

theorem exec_mdGetpix_of_unwritten (row col : BitVec 3) (hv : s.fbValid = false) :
    exec (.mdGetpix row col) s = .fault .framebufferUnwritten := if_neg (by simp [hv])

theorem exec_mdFlush (hv : s.fbValid = true) : exec .mdFlush s = .next (flushed 0 s) :=
  flushAndFinish_of_valid 0 hv

theorem exec_mdFlush_of_unwritten (hv : s.fbValid = false) : exec .mdFlush s = .fault .framebufferUnwritten :=
  flushAndFinish_of_invalid 0 hv

end Commands

/-! ### The control registers -/

/-- Keeping the low four bits is reducing modulo 16 (40_matrix_driver.md rule R118). -/
theorem and_low_four (x : Byte) : x &&& 0x0F = BitVec.ofNat 8 (x.toNat % 16) := by
  apply BitVec.eq_of_toNat_eq
  have hmask : (x &&& 0x0F).toNat = x.toNat % 16 := Nat.and_two_pow_sub_one_eq_mod x.toNat 4
  rw [hmask, BitVec.toNat_ofNat]
  omega

/-- The configured intensity has four bits, so MD.INIT sends it whole (40_matrix_driver.md rule R115). -/
theorem intensity_and_low_four (n : BitVec 4) : n.setWidth 8 &&& 0x0F = BitVec.ofNat 8 n.toNat := by
  have hn := n.isLt
  rw [and_low_four, BitVec.toNat_setWidth]
  congr 1
  omega

/-- Settles O12: the control frames, then the flush of the cleared framebuffer. -/
theorem mdInitClearsAndSendsThirteenFrames : Obligations.MdInitClearsAndSendsThirteenFrames := by
  unfold Obligations.MdInitClearsAndSendsThirteenFrames
  intro s
  have hexec := exec_mdInit s
  have hsent : Sent (controlFrames s.cfg ++ rowFrames fbClear) s (flushed 0 (cleared s)) := (sent_cleared s).flushed 0
  rw [controlFrames, intensity_and_low_four] at hsent
  have hpixels (r c : BitVec 3) : fbPixel (flushed 0 (cleared s)).fb r c = false := by
    rw [flushed_fb]; exact fbPixel_fbClear r c
  exact ⟨_, hexec, returned_flushed 0 (emitControlFrames_results s), hsent, hpixels, flushed_fbValid 0 _,
    exec_sameGame hexec rfl, exec_sameInput hexec⟩

/-- A command that is one register write and its end: the frame is sent and the framebuffer kept. -/
theorem ended_emitFrame (addr data : Byte) (s : State) :
    Returned 0 s (ended 0 (emitFrame addr data s)) ∧ Sent [⟨addr, data⟩] s (ended 0 (emitFrame addr data s)) ∧
      SameFb s (ended 0 (emitFrame addr data s)) :=
  ⟨returned_ended 0 (emitFrame_results addr data s), (sent_emitFrames [⟨addr, data⟩] s).ended 0,
    ⟨emitFrame_fb addr data s, emitFrame_fbValid addr data s⟩⟩

/-- Settles O15: the frame sent, with the masked level as a remainder. -/
theorem mdSetintSendsLowFourBits : Obligations.MdSetintSendsLowFourBits := by
  unfold Obligations.MdSetintSendsLowFourBits
  intro s level
  have hexec := exec_mdSetint s level
  rw [and_low_four] at hexec
  obtain ⟨hreturned, hsent, hfb⟩ := ended_emitFrame 0x0A (BitVec.ofNat 8 (level.toNat % 16)) s
  exact ⟨_, hexec, hreturned, hsent, hfb, exec_sameGame hexec rfl, exec_sameInput hexec⟩

/-- Settles O16: the frame sent carries the inverted flag as the model computes it. -/
theorem mdShdnSendsInvertedFlag : Obligations.MdShdnSendsInvertedFlag := by
  unfold Obligations.MdShdnSendsInvertedFlag
  intro s sd
  have hexec := exec_mdShdn s sd
  obtain ⟨hreturned, hsent, hfb⟩ := ended_emitFrame 0x0C (if sd = true then 0x00 else 0x01) s
  exact ⟨_, hexec, hreturned, hsent, hfb, exec_sameGame hexec rfl, exec_sameInput hexec⟩

/-! ### Pixels -/

/-- Settles O13: the write of one pixel, read back at every row and column. -/
theorem mdSetpixWritesOneBit : Obligations.MdSetpixWritesOneBit := by
  unfold Obligations.MdSetpixWritesOneBit
  intro s row col on
  have hexec := exec_mdSetpix s row col on
  exact ⟨_, hexec, returned_ended 0 (setPixel_results row col on s),
    fun r c => fbPixel_fbSet s.fb row col r c on, setPixel_fbValid row col on s,
    exec_sameGame hexec rfl, ⟨setPixel_lines row col on s, setPixel_frames row col on s⟩, exec_sameInput hexec⟩

/-- Settles O14: the result word is the pixel, and only a written framebuffer is read. -/
theorem mdGetpixReturnsTheBit : Obligations.MdGetpixReturnsTheBit := by
  unfold Obligations.MdGetpixReturnsTheBit
  intro s row col
  refine ⟨fun hv => ?_, exec_mdGetpix_of_unwritten row col⟩
  have hexec := exec_mdGetpix row col hv
  rw [pixelWord_eq_ite] at hexec
  exact ⟨_, hexec, returned_ended _ rfl, ⟨rfl, rfl⟩, exec_sameGame hexec rfl, ⟨rfl, rfl⟩, exec_sameInput hexec⟩

theorem pixelWord_fbSet_same (fb : Framebuffer) (row col : BitVec 3) (on : Bool) :
    pixelWord (fbSet fb row col on) row col = if on = true then 1 else 0 := by
  have hpixel : fbPixel (fbSet fb row col on) row col = on :=
    (fbPixel_fbSet fb row col row col on).trans (if_pos ⟨rfl, rfl⟩)
  rw [pixelWord_eq_ite, hpixel]

theorem pixelWord_fbSet_other (fb : Framebuffer) {row col r c : BitVec 3} (on : Bool) (h : ¬ (r = row ∧ c = col)) :
    pixelWord (fbSet fb row col on) r c = pixelWord fb r c := by
  rw [pixelWord, fbPixel_fbSet, if_neg h, pixelWord]

/-- Settles O18: the two result words are read off the framebuffer after the write. -/
theorem setPixelThenGetPixel : Obligations.SetPixelThenGetPixel := by
  unfold Obligations.SetPixelThenGetPixel
  intro s row col on hv
  have hget (r c : BitVec 3) : exec (.mdGetpix r c) (ended 0 (setPixel row col on s)) =
      .next (ended (pixelWord (fbSet s.fb row col on) r c) (ended 0 (setPixel row col on s))) :=
    exec_mdGetpix r c hv
  refine ⟨_, _, exec_mdSetpix s row col on, hget row col, ?_, fun r c hother => ?_⟩
  · rw [pixelWord_fbSet_same]
    exact List.append_assoc s.results [0] [_]
  · refine ⟨pixelWord s.fb r c, _, _, exec_mdGetpix r c hv, hget r c, rfl, ?_⟩
    rw [pixelWord_fbSet_other s.fb on hother]
    rfl

/-! ### The flush -/

/-- Settles O17: a flush sends the rows and leaves the framebuffer. -/
theorem mdFlushSendsAllRows : Obligations.MdFlushSendsAllRows := by
  unfold Obligations.MdFlushSendsAllRows
  intro s
  refine ⟨fun hv => ?_, exec_mdFlush_of_unwritten⟩
  have hexec := exec_mdFlush hv
  exact ⟨_, hexec, returned_flushed 0 rfl, sent_flushed 0 s, ⟨flushed_fb 0 s, flushed_fbValid 0 s⟩,
    exec_sameGame hexec rfl, exec_sameInput hexec⟩

/-- Settles O19: the second flush finds the framebuffer the first one found. -/
theorem flushTwiceSendsTheSameFrames : Obligations.FlushTwiceSendsTheSameFrames := by
  unfold Obligations.FlushTwiceSendsTheSameFrames
  intro s hv
  have hv' : (flushed 0 s).fbValid = true := (flushed_fbValid 0 s).trans hv
  refine ⟨_, _, rowFrames s.fb, exec_mdFlush hv, exec_mdFlush hv', rfl, flushed_frames 0 s, ?_, ?_⟩
  · rw [flushed_frames, flushed_fb]
  · rw [flushed_fb, flushed_fb]

/-! ### The driver does not read the game (40_matrix_driver.md rule R123) -/

/-- The driver's part of two states agrees: the framebuffer, the wire, the results and the configuration. -/
structure SameDriver (s s' : State) : Prop where
  fb : s'.fb = s.fb
  fbValid : s'.fbValid = s.fbValid
  lines : s'.lines = s.lines
  frames : s'.frames = s.frames
  results : s'.results = s.results
  cfg : s'.cfg = s.cfg

section Agreement

variable {s s' : State}

theorem SameDriver.ended (a : SameDriver s s') (res : Word) : SameDriver (ended res s) (ended res s') :=
  ⟨a.fb, a.fbValid, a.lines, a.frames, congrArg (· ++ [res]) a.results, a.cfg⟩

theorem SameDriver.setPixel (a : SameDriver s s') (r c : BitVec 3) (b : Bool) :
    SameDriver (setPixel r c b s) (setPixel r c b s') :=
  ⟨congrArg (fbSet · r c b) a.fb, a.fbValid, a.lines, a.frames, a.results, a.cfg⟩

theorem SameDriver.emitFrames (a : SameDriver s s') (fs : List Frame) :
    SameDriver (emitFrames fs s) (emitFrames fs s') :=
  ⟨a.fb, a.fbValid, congrArg (runEvents · _) a.lines, congrArg (· ++ fs) a.frames, a.results, a.cfg⟩

theorem SameDriver.flushed (a : SameDriver s s') (res : Word) : SameDriver (flushed res s) (flushed res s') := by
  have hrows : SameDriver (emitRows s) (emitRows s') := by
    unfold emitRows
    rw [a.fb]
    exact a.emitFrames _
  rw [flushed_eq_ended, flushed_eq_ended]
  exact hrows.ended res

theorem SameDriver.cleared (a : SameDriver s s') : SameDriver (cleared s) (cleared s') := by
  have hcontrol : SameDriver (emitControlFrames s) (emitControlFrames s') := by
    unfold emitControlFrames
    rw [a.cfg]
    exact a.emitFrames _
  have hlines := (cleared_lines s').trans (hcontrol.lines.trans (cleared_lines s).symm)
  exact ⟨rfl, rfl, hlines, hcontrol.frames, hcontrol.results, hcontrol.cfg⟩

end Agreement

/-- The six commands of the matrix driver (30_encoding.md rule R83). -/
def MatrixCommand (i : Instr) : Prop :=
  i = .mdInit ∨ (∃ r c on, i = .mdSetpix r c on) ∨ (∃ r c, i = .mdGetpix r c) ∨ (∃ level, i = .mdSetint level) ∨
    (∃ sd, i = .mdShdn sd) ∨ i = .mdFlush

theorem MatrixCommand.writesGame {i : Instr} (hi : MatrixCommand i) : writesGame i = false := by
  rcases hi with rfl | ⟨r, c, on, rfl⟩ | ⟨r, c, rfl⟩ | ⟨level, rfl⟩ | ⟨sd, rfl⟩ | rfl <;> rfl

/-- A driver's command that completes in one of two agreeing states completes in the other, and they still agree. -/
theorem MatrixCommand.exec_sameDriver {i : Instr} {s s' t : State} (hi : MatrixCommand i) (a : SameDriver s s')
    (h : exec i s = .next t) : ∃ t', exec i s' = .next t' ∧ SameDriver t t' := by
  rcases hi with rfl | ⟨r, c, on, rfl⟩ | ⟨r, c, rfl⟩ | ⟨level, rfl⟩ | ⟨sd, rfl⟩ | rfl
  · rw [exec_mdInit] at h; cases h
    exact ⟨_, exec_mdInit s', a.cleared.flushed 0⟩
  · rw [exec_mdSetpix] at h; cases h
    exact ⟨_, exec_mdSetpix s' r c on, (a.setPixel r c on).ended 0⟩
  · obtain ⟨hv, rfl⟩ := execMdGetpix_eq_next h
    refine ⟨_, exec_mdGetpix r c (a.fbValid.trans hv), ?_⟩
    rw [a.fb]
    exact a.ended (pixelWord s.fb r c)
  · rw [exec_mdSetint] at h; cases h
    exact ⟨_, exec_mdSetint s' level, (a.emitFrames _).ended 0⟩
  · rw [exec_mdShdn] at h; cases h
    exact ⟨_, exec_mdShdn s' sd, (a.emitFrames _).ended 0⟩
  · obtain ⟨hv, rfl⟩ := flushAndFinish_eq_next h
    exact ⟨_, exec_mdFlush (a.fbValid.trans hv), a.flushed 0⟩

/-- Settles O46: the two runs agree on the driver's part, and neither writes its game. -/
theorem matrixCommandsIgnoreTheGame : Obligations.MatrixCommandsIgnoreTheGame := by
  unfold Obligations.MatrixCommandsIgnoreTheGame
  intro s s' t i hi hfb hwire hresults hcfg h
  have hcommand : MatrixCommand i := hi
  have hsame : SameDriver s s' := ⟨hfb.fb, hfb.fbValid, hwire.lines, hwire.frames, hresults, hcfg⟩
  obtain ⟨t', h', a⟩ := hcommand.exec_sameDriver hsame h
  exact ⟨t', h', ⟨a.fb, a.fbValid⟩, ⟨a.lines, a.frames⟩, a.results, exec_sameGame h hcommand.writesGame,
    exec_sameGame h' hcommand.writesGame⟩

/-! ### The waveform of one register write (40_matrix_driver.md rules R111, R112) -/

/-- Bit `k` of a sequence is three line events, at `3 * k`. -/
theorem flatMap_bitEvents_getElem? {bits : List Bool} {k j : Nat} {b : Bool} (hk : bits[k]? = some b) (hj : j < 3) :
    (bits.flatMap bitEvents)[3 * k + j]? = (bitEvents b)[j]? := by
  induction bits generalizing k with
  | nil => simp at hk
  | cons b' bits ih =>
    have hlen : (bitEvents b').length = 3 := rfl
    rw [List.flatMap_cons]
    cases k with
    | zero =>
      obtain rfl : b' = b := by simpa using hk
      rw [List.getElem?_append_left (by omega)]
      simp
    | succ k =>
      have hsub : 3 * (k + 1) + j - 3 = 3 * k + j := by omega
      rw [List.getElem?_append_right (by omega), hlen, hsub]
      exact ih hk

/-- The events of the `k`-th bit sent, after the one that selects the device. -/
theorem frameEvents_getElem? (w : FrameWord) {k j : Nat} (hk : k < 16) (hj : j < 3) :
    (frameEvents w)[j + 1 + 3 * k]? = (bitEvents (w.getLsbD (15 - k)))[j]? := by
  have hlen : ((frameBits w).flatMap bitEvents).length = 48 := rfl
  have hindex : j + 1 + 3 * k = (3 * k + j) + 1 := by omega
  rw [frameEvents, hindex, List.getElem?_cons_succ, List.getElem?_append_left (by omega)]
  exact flatMap_bitEvents_getElem? (frameBits_getElem? w hk) hj

theorem lineTrace_emitFrame (addr data : Byte) (s : State) :
    lineTrace (emitFrame addr data s) = lineTrace s ++ frameEvents (frameWord addr data) := by
  rw [lineTrace, emitFrame_frames, List.flatMap_append, List.flatMap_singleton, lineTrace, writeEvents]

/-- Settles O20: the ends of the waveform, the three events of each bit, and the lines a register write moves. -/
theorem frameWaveformHasFiftyEvents : Obligations.FrameWaveformHasFiftyEvents := by
  unfold Obligations.FrameWaveformHasFiftyEvents
  intro s addr data w es
  exact ⟨frameEvents_length w, rfl, rfl,
    fun k hk => ⟨frameEvents_getElem? w hk (j := 0) (by decide), frameEvents_getElem? w hk (j := 1) (by decide),
      frameEvents_getElem? w hk (j := 2) (by decide)⟩,
    emitFrame_lines addr data s, lineTrace_emitFrame addr data s⟩

/-! ### The thirteen frames as register writes (30_encoding.md rules R90, R91) -/

/-- The thirteen display registers: the instruction that writes `data` to one, and the register's address. -/
def displayFrames (data : Byte) : List (Instr × Byte) :=
  [(.frameRow0 data, 0x01), (.frameRow1 data, 0x02), (.frameRow2 data, 0x03), (.frameRow3 data, 0x04),
    (.frameRow4 data, 0x05), (.frameRow5 data, 0x06), (.frameRow6 data, 0x07), (.frameRow7 data, 0x08),
    (.frameDecode data, 0x09), (.frameIntensity data, 0x0A), (.frameScanlimit data, 0x0B),
    (.frameShutdown data, 0x0C), (.frameDisptest data, 0x0F)]

theorem encode_of_mem_displayFrames {data addr : Byte} {i : Instr} (h : (i, addr) ∈ displayFrames data) :
    encode i = .frame (frameWord addr data) := by
  have hall : ∀ p ∈ displayFrames data, encode p.1 = .frame (frameWord p.2 data) := by
    simp [displayFrames, encode]
  exact hall _ h

/-- A frame's word determines the register write it runs as. -/
theorem exec_of_encode_frame {i : Instr} {addr data : Byte} (h : encode i = .frame (frameWord addr data)) (s : State) :
    exec i s = .next (emitFrame addr data s) := by
  obtain ⟨addr', data', hword, hexec⟩ := exec_frame h s
  have haddr : addr = addr' := by simpa using congrArg (BitVec.extractLsb' 8 8) hword
  have hdata : data = data' := by simpa using congrArg (BitVec.extractLsb' 0 8) hword
  rwa [haddr, hdata]

theorem writesGame_of_encode_frame {i : Instr} {w : FrameWord} (h : encode i = .frame w) : writesGame i = false := by
  cases i with
  | geReset | geSteer | geTick | geBlink => cases h
  | _ => rfl

/-- Settles O21: the frame's word, then one register write, whose waveform leaves the lines idle. -/
theorem frameWritesItsRegister : Obligations.FrameWritesItsRegister := by
  unfold Obligations.FrameWritesItsRegister
  intro s data i addr hmem
  have hword : encode i = .frame (frameWord addr data) := encode_of_mem_displayFrames hmem
  have hexec := exec_of_encode_frame hword s
  have hlines : (emitFrame addr data s).lines = ⟨true, false, data.getLsbD 0⟩ := by
    rw [emitFrame_lines, runEvents_writeEvents]
  exact ⟨hword, _, hexec, sent_emitFrames [⟨addr, data⟩] s, hlines, emitFrame_results addr data s,
    emitFrame_draws addr data s, ⟨emitFrame_fb addr data s, emitFrame_fbValid addr data s⟩,
    exec_sameGame hexec (writesGame_of_encode_frame hword), exec_sameInput hexec⟩

end Sys2Proof.Machine

/-! # The input sampler (41_input_sampler.md): the dead zone, the channel consulted, and what a steer writes -/

namespace Sys2Proof.Machine

/-! ### The direction a steer asks for -/

/-- A sample against the closed dead zone, in integers: inside it the earlier direction stays (41_input_sampler.md
rule R143). -/
theorem steerAxis_getD (cfg : Config) (sample : BitVec 12) (low high earlier : Dir) :
    (steerAxis cfg sample low high).getD earlier =
      if sample.toNat < cfg.deadLo.toNat then low
      else if cfg.deadHi.toNat < sample.toNat then high else earlier := by
  simp only [steerAxis, BitVec.lt_def]
  split
  · rfl
  · split <;> rfl

/-- Moving horizontally, the vertical channel alone is consulted (41_input_sampler.md rule R142). -/
theorem steerDir_of_horizontal {d : Dir} (hd : d = .left ∨ d = .right) (cfg : Config) (h v : BitVec 12) :
    steerDir cfg d h v = steerAxis cfg v .up .down :=
  if_pos (isHorizontal_eq_true_iff.2 hd)

/-- Moving vertically, the horizontal channel alone is consulted (41_input_sampler.md rule R142). -/
theorem steerDir_of_vertical {d : Dir} (hd : d = .up ∨ d = .down) (cfg : Config) (h v : BitVec 12) :
    steerDir cfg d h v = steerAxis cfg h .left .right :=
  if_neg (Bool.eq_false_iff.1 (isHorizontal_eq_false_iff.2 hd))

theorem vertical_of_not_horizontal {d : Dir} (hd : ¬ (d = .left ∨ d = .right)) : d = .up ∨ d = .down := by
  rwa [← isHorizontal_eq_true_iff, Bool.not_eq_true, isHorizontal_eq_false_iff] at hd

/-! ### GE.STEER's next state (41_input_sampler.md rule R141) -/

/-- The state with `pend` as two samples leave it. -/
def steered (h v : BitVec 12) (s : State) : State := { s with pend := (steerDir s.cfg s.dir h v).getD s.pend }

theorem steered_pend_of_horizontal {s : State} (hd : s.dir = .left ∨ s.dir = .right) (h v : BitVec 12) :
    (steered h v s).pend =
      if v.toNat < s.cfg.deadLo.toNat then .up
      else if s.cfg.deadHi.toNat < v.toNat then .down else s.pend := by
  rw [steered, steerDir_of_horizontal hd, steerAxis_getD]

theorem steered_pend_of_vertical {s : State} (hd : s.dir = .up ∨ s.dir = .down) (h v : BitVec 12) :
    (steered h v s).pend =
      if h.toNat < s.cfg.deadLo.toNat then .left
      else if s.cfg.deadHi.toNat < h.toNat then .right else s.pend := by
  rw [steered, steerDir_of_vertical hd, steerAxis_getD]

theorem exec_geSteer {s : State} (h v : BitVec 12) (hg : s.geValid = true) :
    exec (.geSteer h v) s = .next (ended 0 (steered h v s)) := if_pos hg

theorem exec_geSteer_of_unwritten {s : State} (h v : BitVec 12) (hg : s.geValid = false) :
    exec (.geSteer h v) s = .fault .gameUnwritten := if_neg (by simp [hg])

/-- Settles O27: the written `pend` by the axis of motion, and every other element of the state as it was. -/
theorem geSteerWritesPendOnly : Obligations.GeSteerWritesPendOnly := by
  unfold Obligations.GeSteerWritesPendOnly
  intro s h v
  refine ⟨fun hg => ?_, exec_geSteer_of_unwritten h v⟩
  have hexec := exec_geSteer h v hg
  refine ⟨_, hexec, returned_ended 0 rfl, ?_, ⟨rfl, rfl, rfl, rfl, rfl, rfl, rfl, rfl, rfl⟩, ⟨rfl, rfl⟩, ⟨rfl, rfl⟩,
    exec_sameInput hexec⟩
  split
  · next hd => exact steered_pend_of_horizontal hd h v
  · next hd => exact steered_pend_of_vertical (vertical_of_not_horizontal hd) h v

/-! ### The channel along the motion (41_input_sampler.md rules R142, R145) -/

/-- The samples act only through the direction they ask for. -/
theorem exec_geSteer_congr {s : State} {h h' v v' : BitVec 12}
    (hsame : steerDir s.cfg s.dir h v = steerDir s.cfg s.dir h' v') :
    exec (.geSteer h v) s = exec (.geSteer h' v') s := by
  rw [exec, exec, execGeSteer, execGeSteer, hsame]

/-- Settles O28: on either axis of motion the direction asked for leaves out one sample. -/
theorem steerIgnoresTheAxisOfMotion : Obligations.SteerIgnoresTheAxisOfMotion := by
  unfold Obligations.SteerIgnoresTheAxisOfMotion
  intro s h h' v v'
  refine ⟨fun hd => exec_geSteer_congr ?_, fun hd => exec_geSteer_congr ?_⟩
  · rw [steerDir_of_horizontal hd, steerDir_of_horizontal hd]
  · rw [steerDir_of_vertical hd, steerDir_of_vertical hd]

end Sys2Proof.Machine

/-! # The game engine (42_game_state.md): the candidate, food placement, the paths of a tick, construction, the blink
and the query -/

namespace Sys2Proof.Machine

/-! ### The candidate (42_game_state.md rules R154, R155) -/

/-- A Position built from coordinates in the grid has those coordinates. -/
theorem posOf_toNat {x y : Int} (h : inGrid x y = true) :
    ((posOf x y).x.toNat : Int) = x ∧ ((posOf x y).y.toNat : Int) = y := by
  rw [inGrid_iff] at h
  simp only [posOf, BitVec.toNat_ofInt]
  omega

theorem inGrid_of_stepsTo {d : Dir} {p q : Pos} (h : StepsTo d p q) :
    inGrid (p.x.toNat + dx d) (p.y.toNat + dy d) = true := by
  obtain ⟨hx, hy⟩ := h
  have hqx := q.x.isLt
  have hqy := q.y.isLt
  rw [inGrid_iff]
  omega

theorem StepsTo.unique {d : Dir} {p q q' : Pos} (h : StepsTo d p q) (h' : StepsTo d p q') : q = q' := by
  obtain ⟨hx, hy⟩ := h
  obtain ⟨hx', hy'⟩ := h'
  have ex : q.x = q'.x := BitVec.eq_of_toNat_eq (by omega)
  have ey : q.y = q'.y := BitVec.eq_of_toNat_eq (by omega)
  exact congrArg₂ Pos.mk ex ey

theorem neighbour_eq_some_iff {d : Dir} {p q : Pos} : neighbour d p = some q ↔ StepsTo d p q := by
  refine ⟨neighbour_eq_some, fun h => ?_⟩
  cases hn : neighbour d p with
  | none =>
    rw [neighbour_eq_none, inGrid_of_stepsTo h] at hn
    cases hn
  | some q' => rw [StepsTo.unique (neighbour_eq_some hn) h]

/-- A unit step changes a coordinate by at most 1, so it leaves the grid at -1 or 8. -/
theorem neighbour_eq_none_iff {d : Dir} {p : Pos} : neighbour d p = none ↔ StepsOff d p := by
  have hx := p.x.isLt
  have hy := p.y.isLt
  rw [neighbour_eq_none, Bool.eq_false_iff, Ne, inGrid_iff, StepsOff]
  cases d <;> simp only [dx, dy] <;> omega

/-- Settles O30: the four unit steps as the model has them, and the candidate as the stepped cell or none. -/
theorem candidateIsOneStepOrOffTheGrid : Obligations.CandidateIsOneStepOrOffTheGrid := by
  unfold Obligations.CandidateIsOneStepOrOffTheGrid
  exact ⟨rfl, rfl, rfl, rfl, fun _ _ => ⟨fun _ => neighbour_eq_some_iff, neighbour_eq_none_iff⟩⟩

/-! ### Food placement (42_game_state.md rules R162, R163) -/

/-- An excluded draw costs one attempt and nothing else. -/
theorem place_append_rejected {excluded rejected : List Pos} (rest : List Pos) (k : Nat)
    (h : ∀ q ∈ rejected, q ∈ excluded) :
    place excluded (k + rejected.length) (rejected ++ rest) = place excluded k rest := by
  induction rejected with
  | nil => rfl
  | cons q rejected ih =>
    obtain ⟨hq, hrest⟩ := List.forall_mem_cons.1 h
    rw [List.length_cons, List.cons_append, ← Nat.add_assoc, place, if_pos (List.contains_iff_mem.2 hq), ih hrest]

theorem place_eq_accepted_iff {excluded draws : List Pos} {n : Nat} {p : Pos} :
    place excluded n draws = .accepted p ↔ p ∉ excluded ∧
      ∃ rejected rest, draws = rejected ++ p :: rest ∧ rejected.length < n ∧ ∀ q ∈ rejected, q ∈ excluded := by
  refine ⟨place_eq_accepted, ?_⟩
  rintro ⟨hp, rejected, rest, rfl, hlt, hrejected⟩
  obtain ⟨k, rfl⟩ := Nat.exists_eq_add_of_lt hlt
  rw [show rejected.length + k + 1 = k + 1 + rejected.length by omega, place_append_rejected _ _ hrejected, place,
    if_neg (by simpa using hp)]

theorem place_eq_exhausted_iff {excluded draws : List Pos} {n : Nat} :
    place excluded n draws = .exhausted ↔ n ≤ draws.length ∧ ∀ q ∈ draws.take n, q ∈ excluded := by
  induction n generalizing draws with
  | zero => simp [place]
  | succ n ih =>
    cases draws with
    | nil => simp [place]
    | cons q draws =>
      by_cases hq : q ∈ excluded
      · simp [place, hq, ih]
      · simp [place, hq]

theorem place_eq_ranOut_iff {excluded draws : List Pos} {n : Nat} :
    place excluded n draws = .ranOut ↔ draws.length < n ∧ ∀ q ∈ draws, q ∈ excluded := by
  induction n generalizing draws with
  | zero => simp [place]
  | succ n ih =>
    cases draws with
    | nil => simp [place]
    | cons q draws =>
      by_cases hq : q ∈ excluded
      · simp [place, hq, ih]
      · simp [place, hq]

/-- Settles O39: each way a placement ends, by induction on the attempts left. -/
theorem placementTakesTheFirstFreeDraw : Obligations.PlacementTakesTheFirstFreeDraw := by
  unfold Obligations.PlacementTakesTheFirstFreeDraw
  exact fun _ _ => ⟨fun _ => place_eq_accepted_iff, place_eq_exhausted_iff, place_eq_ranOut_iff⟩

/-! ### The paths of a tick (42_game_state.md rules R153, R165) -/

section Paths

variable {s : State} (hg : s.geValid = true)

include hg

theorem exec_geTick_of_stepsTo {c : Pos} (hc : StepsTo s.pend (headOf s) c) :
    exec .geTick s = if c = s.food then tickGrow c s else tickMove c s := by
  rw [exec, execGeTick, if_pos hg, neighbour_eq_some_iff.2 hc]

theorem exec_geTick_of_food (hc : StepsTo s.pend (headOf s) s.food) : exec .geTick s = tickGrow s.food s := by
  rw [exec_geTick_of_stepsTo hg hc, if_pos rfl]

theorem exec_geTick_of_accepted {p : Pos} (hv : s.fbValid = true) (hc : StepsTo s.pend (headOf s) s.food)
    (hp : place (s.food :: body s) maxAttempts s.draws = .accepted p) :
    exec .geTick s = .next (flushed codeGrew (commitGrow s.food p s)) := by
  rw [exec_geTick_of_food hg hc, tickGrow, hp]
  exact flushAndFinish_of_valid codeGrew hv

theorem exec_geTick_of_exhausted (hc : StepsTo s.pend (headOf s) s.food)
    (hp : place (s.food :: body s) maxAttempts s.draws = .exhausted) :
    exec .geTick s = .next (restarted .foodPlacementExhausted s) := by
  rw [exec_geTick_of_food hg hc, tickGrow, hp]
  exact restart_eq .foodPlacementExhausted s

theorem exec_geTick_of_ranOut (hc : StepsTo s.pend (headOf s) s.food)
    (hp : place (s.food :: body s) maxAttempts s.draws = .ranOut) : exec .geTick s = .fault .drawsRanOut := by
  rw [exec_geTick_of_food hg hc, tickGrow, hp]

theorem exec_geTick_of_free {c : Pos} (hv : s.fbValid = true) (hc : StepsTo s.pend (headOf s) c) (hfood : c ≠ s.food)
    (hbody : c ∉ body s) : exec .geTick s = .next (flushed codeMoved (commitMove c s)) := by
  rw [exec_geTick_of_stepsTo hg hc, if_neg hfood, tickMove, if_neg (by simpa using hbody)]
  exact flushAndFinish_of_valid codeMoved hv

end Paths

/-- Settles O36: the placement answers `ranOut`. -/
theorem tickIsStuckWithoutDraws : Obligations.TickIsStuckWithoutDraws := by
  unfold Obligations.TickIsStuckWithoutDraws
  exact fun s hg hc hlt hall => exec_geTick_of_ranOut hg hc (place_eq_ranOut_iff.2 ⟨hlt, hall⟩)

/-- A shift writes no slot from the live ones on (42_game_state.md rule R161). -/
theorem pushHead_getElem_of_le (c : Pos) {n i : Nat} (seg : SegArray) (hn : n ≤ i) (hi : i < 64) :
    (pushHead c n seg)[i] = seg[i] := by
  simp [pushHead, Nat.not_lt.2 hn]

/-- Settles O31: the tick's next state is the commit of a move, flushed. -/
theorem tickMovesTheSnake : Obligations.TickMovesTheSnake := by
  unfold Obligations.TickMovesTheSnake
  intro s c hg hv hpos hle hc hfood hfree
  have hexec := exec_geTick_of_free hg hv hc hfood hfree
  refine ⟨_, hexec, returned_flushed 0 rfl, ?_, fun i hi => ?_, ?_, fun q => ?_, execGeTick_fbValid hexec,
    execGeTick_sent hexec, exec_sameInput hexec⟩
  · rw [body_flushed, body_commitMove c hpos hle]
  · simp only [flushed_seg, commitMove_seg]
    exact pushHead_getElem_of_le c s.seg hi i.isLt
  · constructor <;> simp
  · rw [flushed_fb, commitMove_fb, fbPixelAt_fbSetAt, fbPixelAt_fbSetAt]

/-- Settles O32: the placement accepts the given draw, and the tick's next state is the commit of a growth, flushed. -/
theorem tickGrowsTheSnake : Obligations.TickGrowsTheSnake := by
  unfold Obligations.TickGrowsTheSnake
  intro s p rejected rest hg hv _ hle hc hdraws hlt hrejected hp
  have hplace : place (s.food :: body s) maxAttempts s.draws = .accepted p :=
    place_eq_accepted_iff.2 ⟨hp, rejected, rest, hdraws, hlt, hrejected⟩
  have hexec := exec_geTick_of_accepted hg hv hc hplace
  refine ⟨_, hexec, returned_flushed 1 rfl, ?_, ?_, fun i hi => ?_, ?_, fun q => ?_, execGeTick_fbValid hexec,
    execGeTick_sent hexec, exec_sameInput hexec⟩
  · rw [body_flushed, body_commitGrow s.food p hle]
  · rw [flushed_len, commitGrow_len_toNat s.food p hle]
  · simp only [flushed_seg, commitGrow_seg]
    exact pushHead_getElem_of_le s.food s.seg hi i.isLt
  · constructor <;> simp
  · rw [flushed_fb, commitGrow_fb, fbPixelAt_fbSetAt, fbPixelAt_fbSetAt]

/-! ### The restart's game (60_exceptions.md rule R205) -/

theorem InitialGame.flushed {s : State} (g : InitialGame s) (res : Word) : InitialGame (flushed res s) := by
  obtain ⟨hbody, hlen, hdir, hpend, hfood, hvis, hgstate, hgeValid, hfbValid, himage⟩ := g
  constructor <;> simpa

theorem initialGame_restarted (cause : Cause) {s : State} (h : s.cfg.initLen.toNat ≤ 64) :
    InitialGame (restarted cause s) :=
  (initialGame_construct h).flushed _

theorem causeCode_cases (cause : Cause) : causeCode cause = 2 ∨ causeCode cause = 3 ∨ causeCode cause = 4 := by
  cases cause <;> decide

/-- Settles O37: the restart, the growth and the move, the ways a tick completes. -/
theorem tickOutcomeSummary : Obligations.TickOutcomeSummary := by
  unfold Obligations.TickOutcomeSummary
  intro s t hinit hle h
  refine ⟨execGeTick_sent h, ?_⟩
  rcases execGeTick_outcome h with ⟨cause, rfl⟩ | ⟨p, -, -, rfl⟩ | ⟨c, -, -, -, rfl⟩
  · exact ⟨_, returned_flushed _ rfl, .inr (.inr ⟨causeCode_cases cause, flushed_len _ _,
      initialGame_restarted cause hinit⟩)⟩
  · have hlen : (flushed codeGrew (commitGrow s.food p s)).len.toNat = s.len.toNat + 1 := by
      rw [flushed_len, commitGrow_len_toNat s.food p hle]
    exact ⟨_, returned_flushed _ rfl, .inr (.inl ⟨rfl, hlen, by simp, by simp⟩)⟩
  · exact ⟨_, returned_flushed _ rfl, .inl ⟨rfl, by simp, by simp, by simp⟩⟩

/-- 64 distinct Positions are the whole grid (00_scope.md rule R8). -/
theorem mem_of_nodup_of_length {l : List Pos} (hnodup : l.Nodup) (hlen : l.length = 64) (q : Pos) : q ∈ l := by
  by_contra hq
  have hle := length_le_of_nodup (List.nodup_cons.2 ⟨hq, hnodup⟩)
  rw [List.length_cons] at hle
  omega

theorem GameInv.mem_grown_body {s : State} (g : GameInv s) (hlen : s.len = 63) (q : Pos) : q ∈ s.food :: body s := by
  apply mem_of_nodup_of_length (List.nodup_cons.2 ⟨g.food_off, g.distinct⟩)
  rw [List.length_cons, body_length (Nat.le_succ_of_le g.len_le), hlen]
  rfl

/-- Settles O40: the body after growth is the whole grid, so no draw is outside it. -/
theorem fullBoardAlwaysExhausts : Obligations.FullBoardAlwaysExhausts := by
  unfold Obligations.FullBoardAlwaysExhausts
  intro s hg hinit g hlen hc
  have hfull := g.mem_grown_body hlen
  refine ⟨hfull, fun hdraws => ?_⟩
  have hplace : place (s.food :: body s) maxAttempts s.draws = .exhausted :=
    place_eq_exhausted_iff.2 ⟨hdraws, fun q _ => hfull q⟩
  exact ⟨_, exec_geTick_of_exhausted hg hc hplace, returned_flushed 4 rfl,
    initialGame_restarted .foodPlacementExhausted hinit⟩

/-! ### Construction (42_game_state.md rules R150 to R152) -/

/-- A flush of a state that has sent nothing since `s` sends the rows of the image it leaves. -/
theorem sent_rows_flushed {s u : State} (res : Word) (hframes : u.frames = s.frames) (hlines : u.lines = s.lines) :
    Sent (rowFrames (flushed res u).fb) s (flushed res u) := by
  rw [flushed_fb]
  exact (sent_nil hframes hlines).flushed res

/-- The initial segments of a valid configuration stand where its integers put them (42_game_state.md rule R151). -/
theorem initSegment_toNat {cfg : Config} (hc : configValid cfg = true) {i : Nat} (hi : i < cfg.initLen.toNat) :
    ((initSegment cfg i).x.toNat : Int) = initX cfg i ∧ ((initSegment cfg i).y.toNat : Int) = initY cfg i := by
  obtain ⟨-, -, hgrid, -, -⟩ := configValid_iff.1 hc
  exact posOf_toNat (hgrid i hi)

theorem initSeg_getElem (cfg : Config) (occasion : Nat) {i : Nat} (hi : i < cfg.initLen.toNat) (h64 : i < 64) :
    (initSeg cfg occasion)[i] = initSegment cfg i := by
  simp [initSeg, hi]

/-- Settles O29: a construction, flushed. -/
theorem geResetConstructsTheGame : Obligations.GeResetConstructsTheGame := by
  unfold Obligations.GeResetConstructsTheGame
  intro s hc
  have hexec : exec .geReset s = .next (flushed 0 (construct s)) := execGeReset_eq s
  have hlen := Nat.le_succ_of_le (initLen_le_of_configValid hc)
  refine ⟨_, hexec, returned_flushed 0 rfl, (initialGame_construct hlen).flushed 0,
    sent_rows_flushed 0 (construct_frames s) (construct_lines s), exec_sameInput hexec, fun i hi => ?_⟩
  simp only [flushed_seg, construct_seg, initSeg_getElem s.cfg s.fresh hi i.isLt]
  exact initSegment_toNat hc hi

/-! ### The blink (42_game_state.md rule R168) -/

theorem exec_geBlink {s : State} (hg : s.geValid = true) (hv : s.fbValid = true) :
    exec .geBlink s = .next (flushed 0 (toggleFood s)) := by
  rw [exec, execGeBlink, if_pos hg]
  exact flushAndFinish_of_valid 0 ((toggleFood_fbValid s).trans hv)

theorem exec_geBlink_of_unwritten {s : State} (hg : s.geValid = false) : exec .geBlink s = .fault .gameUnwritten :=
  if_neg (by simp [hg])

theorem fbPixelAt_toggleFood (s : State) (q : Pos) : fbPixelAt (toggleFood s).fb q =
    if q = s.food ∧ headOf s ≠ s.food then !s.vis else fbPixelAt s.fb q := by
  rw [toggleFood_fb]
  by_cases hhead : headOf s = s.food
  · simp [hhead]
  · simp [hhead]

/-- Settles O41: the toggled state, flushed. -/
theorem geBlinkTogglesTheFood : Obligations.GeBlinkTogglesTheFood := by
  unfold Obligations.GeBlinkTogglesTheFood
  refine fun s => ⟨fun hg hv => ?_, exec_geBlink_of_unwritten⟩
  have hexec := exec_geBlink hg hv
  refine ⟨_, hexec, returned_flushed 0 (toggleFood_results s), by simp, ?_, fun q => ?_, by simpa using hv,
    sent_rows_flushed 0 (toggleFood_frames s) (toggleFood_lines s), exec_sameInput hexec⟩
  · constructor <;> simp
  · rw [flushed_fb, fbPixelAt_toggleFood]

/-! ### The query (42_game_state.md rule R169) -/

/-- The selectors of 30_encoding.md rule R88 that read a framebuffer row. -/
def readsRow : Selector → Bool
  | .fbRow _ => true
  | _ => false

/-- The row selectors are the bytes from 0x80 on. -/
theorem readsRow_of_selectorOf {sel : Byte} {q : Selector} (hq : selectorOf sel = some q) :
    readsRow q = decide (0x80 ≤ sel.toNat) := by
  have hall : ∀ sel : Byte, (selectorOf sel).all (readsRow · == decide (0x80 ≤ sel.toNat)) = true := by decide
  simpa [hq] using hall sel

theorem selectorOf_of_defined {sel : Byte} (h : sel.toNat ≤ 0x06 ∨ (0x40 ≤ sel.toNat ∧ sel.toNat ≤ 0x87)) :
    ∃ q, selectorOf sel = some q := by
  rw [← Option.ne_none_iff_exists', Ne, selectorOf_eq_none_iff, selectorReserved_iff]
  omega

section Query

variable {s : State} {sel : Byte} {q : Selector} (hq : selectorOf sel = some q)

include hq

theorem exec_geQuery (hw : if 0x80 ≤ sel.toNat then s.fbValid = true else s.geValid = true) :
    exec (.geQuery sel) s = .next (ended ((queryValue s q).setWidth 32) s) := by
  have hrow := readsRow_of_selectorOf hq
  rw [exec, execGeQuery, hq]
  cases q with
  | fbRow r =>
    rw [if_pos (of_decide_eq_true hrow.symm)] at hw
    exact if_pos hw
  | _ =>
    rw [if_neg (of_decide_eq_false hrow.symm)] at hw
    exact if_pos hw

theorem exec_geQuery_of_unwritten_row (hrow : 0x80 ≤ sel.toNat) (hv : s.fbValid = false) :
    exec (.geQuery sel) s = .fault .framebufferUnwritten := by
  have hreads := (readsRow_of_selectorOf hq).trans (decide_eq_true hrow)
  rw [exec, execGeQuery, hq]
  cases q with
  | fbRow r => exact if_neg (by simp [hv])
  | _ => cases hreads

theorem exec_geQuery_of_unwritten_game (hgame : sel.toNat < 0x80) (hg : s.geValid = false) :
    exec (.geQuery sel) s = .fault .gameUnwritten := by
  have hreads := (readsRow_of_selectorOf hq).trans (decide_eq_false (Nat.not_le.2 hgame))
  rw [exec, execGeQuery, hq]
  cases q with
  | fbRow r => cases hreads
  | _ => exact if_neg (by simp [hg])

end Query

/-- The value of a defined selector as 30_encoding.md rule R88 tabulates it, by the selector's byte. -/
def selectedValue (s : State) (sel : Byte) : Nat :=
  if sel = 0x00 then s.len.toNat
  else if sel = 0x01 then (dirCode s.dir).toNat
  else if sel = 0x02 then (dirCode s.pend).toNat
  else if sel = 0x03 then 16 * (segAt s 0).x.toNat + (segAt s 0).y.toNat
  else if sel = 0x04 then 16 * s.food.x.toNat + s.food.y.toNat
  else if sel = 0x05 then (if s.vis = true then 1 else 0)
  else if sel = 0x06 then 0
  else if sel.toNat ≤ 0x7F then
    (if sel.toNat - 0x40 < s.len.toNat then
      16 * (segAt s (BitVec.ofNat 6 (sel.toNat - 0x40))).x.toNat + (segAt s (BitVec.ofNat 6 (sel.toNat - 0x40))).y.toNat
    else 0xFF)
  else (s.fb.toList.getD (sel.toNat - 0x80) 0).toNat

theorem queryValue_vis_toNat (s : State) : (queryValue s .vis).toNat = if s.vis = true then 1 else 0 := by
  rw [queryValue]
  cases s.vis <;> rfl

/-- A slot reads as its packed Position, and as 0xFF at or beyond the length, never as its stale contents. -/
theorem queryValue_seg_toNat (s : State) (i : BitVec 6) : (queryValue s (.seg i)).toNat =
    if i.toNat < s.len.toNat then 16 * (segAt s i).x.toNat + (segAt s i).y.toNat else 0xFF := by
  rw [queryValue]
  split
  · exact pack_toNat _
  · rfl

theorem queryValue_fbRow_toNat (s : State) (r : BitVec 3) :
    (queryValue s (.fbRow r)).toNat = (s.fb.toList.getD r.toNat 0).toNat := by
  rw [queryValue, List.getD_eq_getElem _ _ (by simpa using r.isLt), Vector.getElem_toList]

theorem selector_eq_of_le_six {sel : Byte} (h : sel.toNat ≤ 0x06) :
    sel = 0x00 ∨ sel = 0x01 ∨ sel = 0x02 ∨ sel = 0x03 ∨ sel = 0x04 ∨ sel = 0x05 ∨ sel = 0x06 := by
  revert sel; decide

/-- The model's table of values agrees with rule R88's: the seven single selectors, the slots and the rows. -/
theorem queryValue_toNat (s : State) {sel : Byte} {q : Selector} (hq : selectorOf sel = some q) :
    (queryValue s q).toNat = selectedValue s sel := by
  by_cases hlow : sel.toNat ≤ 0x06
  · rcases selector_eq_of_le_six hlow with rfl | rfl | rfl | rfl | rfl | rfl | rfl <;> cases hq
    · exact BitVec.toNat_setWidth_of_le (by decide)
    · exact BitVec.toNat_setWidth_of_le (by decide)
    · exact BitVec.toNat_setWidth_of_le (by decide)
    · exact pack_toNat (segAt s 0)
    · exact pack_toNat s.food
    · exact queryValue_vis_toNat s
    · rfl
  · have hne (k : Byte) (hk : k.toNat ≤ 0x06) : sel ≠ k := fun h => hlow (h ▸ hk)
    unfold selectorOf at hq
    unfold selectedValue
    simp (disch := decide) only [hne, if_false] at hq ⊢
    split_ifs at hq with hseg hrow
    · cases hq
      rw [if_pos hseg.2, queryValue_seg_toNat, BitVec.toNat_ofNat, Nat.mod_eq_of_lt (by omega)]
    · cases hq
      rw [if_neg (by omega), queryValue_fbRow_toNat, BitVec.toNat_ofNat, Nat.mod_eq_of_lt (by omega)]

/-- Settles O42: the value from the table, and each stop from the part of the state its selector reads. -/
theorem geQueryReturnsTheSelectedValue : Obligations.GeQueryReturnsTheSelectedValue := by
  unfold Obligations.GeQueryReturnsTheSelectedValue
  intro s sel
  refine ⟨fun hsel hw => ?_, fun hsel => ?_, fun hsel hv => ?_, fun hsel hg => ?_⟩
  · obtain ⟨q, hq⟩ := selectorOf_of_defined hsel
    have hexec := exec_geQuery hq hw
    exact ⟨_, _, hexec, returned_ended _ rfl, exec_sameGame hexec rfl, ⟨rfl, rfl⟩, ⟨rfl, rfl⟩, exec_sameInput hexec,
      (BitVec.toNat_setWidth_of_le (by decide)).trans (queryValue_toNat s hq)⟩
  · exact execGeQuery_eq_refused_iff.2 (selectorReserved_iff.2 hsel)
  · obtain ⟨q, hq⟩ := selectorOf_of_defined (sel := sel) (by omega)
    exact exec_geQuery_of_unwritten_row hq hsel.1 hv
  · obtain ⟨q, hq⟩ := selectorOf_of_defined (sel := sel) (by omega)
    exact exec_geQuery_of_unwritten_game hq (by omega) hg

end Sys2Proof.Machine

/-! # Exceptions and the host (60_exceptions.md): the three fatal conditions and their restart, that every command
completes, and the host's scheduler and loop -/

namespace Sys2Proof.Machine

/-! ### The restart's state (60_exceptions.md rule R205) -/

section Restarted

variable (cause : Cause) (s : State)

@[simp] theorem restarted_cfg : (restarted cause s).cfg = s.cfg := flushed_cfg _ _

@[simp] theorem restarted_fb : (restarted cause s).fb = imageOf (initBody s.cfg) s.cfg.initFood := flushed_fb _ _

@[simp] theorem restarted_frames : (restarted cause s).frames = s.frames ++ rowFrames (restarted cause s).fb := by
  simp [restarted]

@[simp] theorem restarted_lines : (restarted cause s).lines = ⟨true, false, (restarted cause s).fb[7].getLsbD 0⟩ := by
  simp [restarted]

theorem returned_restarted : Returned (causeCode cause) s (restarted cause s) := returned_flushed _ rfl

end Restarted

/-! ### The three fatal conditions (60_exceptions.md rules R201 to R203) -/

theorem exec_geTick_of_stepsOff {s : State} (hg : s.geValid = true) (hoff : StepsOff s.pend (headOf s)) :
    exec .geTick s = .next (restarted .outOfBounds s) := by
  rw [exec, execGeTick, if_pos hg, neighbour_eq_none_iff.2 hoff]
  exact restart_eq .outOfBounds s

theorem exec_geTick_of_collision {s : State} {c : Pos} (hg : s.geValid = true) (hc : StepsTo s.pend (headOf s) c)
    (hfood : c ≠ s.food) (hbody : c ∈ body s) : exec .geTick s = .next (restarted .selfCollision s) := by
  rw [exec_geTick_of_stepsTo hg hc, if_neg hfood, tickMove, if_pos (List.contains_iff_mem.2 hbody)]
  exact restart_eq .selfCollision s

/-- What a tick that ends in the restart leaves and returns, whatever the cause (60_exceptions.md rule R205). -/
theorem exec_geTick_restarts {s : State} {cause : Cause} (hlen : s.cfg.initLen.toNat ≤ 64)
    (h : exec .geTick s = .next (restarted cause s)) : ∃ t : State,
    exec .geTick s = .next t ∧ Returned (causeCode cause) s t ∧ InitialGame t ∧ Sent (rowFrames t.fb) s t ∧
      SameInput s t :=
  ⟨_, h, returned_restarted cause s, initialGame_restarted cause hlen, execGeTick_sent h, exec_sameInput h⟩

/-- Settles O33: with no candidate on the grid the tick restarts. -/
theorem tickOffTheGridRestarts : Obligations.TickOffTheGridRestarts := by
  unfold Obligations.TickOffTheGridRestarts
  exact fun s hg hlen hoff => exec_geTick_restarts hlen (exec_geTick_of_stepsOff hg hoff)

/-- Settles O34: a candidate in the body, tail included, restarts. -/
theorem tickIntoTheBodyRestarts : Obligations.TickIntoTheBodyRestarts := by
  unfold Obligations.TickIntoTheBodyRestarts
  exact fun s c hg hlen hc hfood hbody => exec_geTick_restarts hlen (exec_geTick_of_collision hg hc hfood hbody)

/-- Settles O35: 512 rejected draws exhaust the placement, which restarts. -/
theorem tickWithoutRoomForFoodRestarts : Obligations.TickWithoutRoomForFoodRestarts := by
  unfold Obligations.TickWithoutRoomForFoodRestarts
  exact fun s hg hlen hc hdraws hall =>
    exec_geTick_restarts hlen (exec_geTick_of_exhausted hg hc (place_eq_exhausted_iff.2 ⟨hdraws, hall⟩))

/-! ### Nothing of the abandoned game is left (60_exceptions.md rule R206) -/

theorem Returned.unique {s t : State} {res res' : Word} (h : Returned res s t) (h' : Returned res' s t) :
    res = res' := by
  simpa using h.results.symm.trans h'.results

/-- A tick with a code of 2 or more is a restart: growth and motion return 1 and 0. -/
theorem exec_geTick_eq_restarted {s t : State} {code : Word} (h : exec .geTick s = .next t)
    (hcode : Returned code s t) (hle : 2 ≤ code.toNat) : ∃ cause, t = restarted cause s := by
  rcases execGeTick_outcome h with hrestart | ⟨p, -, -, rfl⟩ | ⟨c, -, -, -, rfl⟩
  · exact hrestart
  · rw [hcode.unique (returned_flushed codeGrew rfl)] at hle
    exact absurd hle (by decide)
  · rw [hcode.unique (returned_flushed codeMoved rfl)] at hle
    exact absurd hle (by decide)

/-- Settles O38: both ticks leave the initial game of the one configuration, with its image, and the rows of an image
leave the lines at its last bit whatever they were. -/
theorem restartDependsOnConfigAlone : Obligations.RestartDependsOnConfigAlone := by
  unfold Obligations.RestartDependsOnConfigAlone
  intro s s' t t' code code' hcfg hlen h h' hcode hcode' hle hle'
  obtain ⟨cause, rfl⟩ := exec_geTick_eq_restarted h hcode hle
  obtain ⟨cause', rfl⟩ := exec_geTick_eq_restarted h' hcode' hle'
  have g : InitialGame (restarted cause s) := initialGame_restarted cause hlen
  have g' : InitialGame (restarted cause' s') := initialGame_restarted cause' (by rwa [hcfg])
  have hcfg' : (restarted cause' s').cfg = (restarted cause s).cfg := by rw [restarted_cfg, hcfg, restarted_cfg]
  have hfb : (restarted cause' s').fb = (restarted cause s).fb := by rw [restarted_fb, hcfg, restarted_fb]
  refine ⟨?_, ?_, ?_, ?_, ?_, ?_, ?_, ⟨hfb, ?_⟩, ?_, rowFrames (restarted cause s).fb, restarted_frames cause s, ?_⟩
  · rw [g'.body, g.body, hcfg']
  · rw [g'.len, g.len, hcfg']
  · rw [g'.dir, g.dir, hcfg']
  · rw [g'.pend, g.pend, hcfg']
  · rw [g'.food, g.food, hcfg']
  · rw [g'.vis, g.vis]
  · rw [g'.gstate, g.gstate]
  · rw [g'.fbValid, g.fbValid]
  · rw [restarted_lines, hfb, ← restarted_lines]
  · rw [restarted_frames, hfb]

/-! ### Every command completes (60_exceptions.md rule R224) -/

section Completes

variable {s : State} (hg : s.geValid = true) (hv : s.fbValid = true)

include hg hv

/-- With 512 draws the placement of a growing tick ends, accepted or exhausted (42_game_state.md rule R162). -/
theorem exec_geTick_completes (hdraws : 512 ≤ s.draws.length) : ∃ t, exec .geTick s = .next t := by
  cases hn : neighbour s.pend (headOf s) with
  | none => exact ⟨_, exec_geTick_of_stepsOff hg (neighbour_eq_none_iff.1 hn)⟩
  | some c =>
    have hc := neighbour_eq_some_iff.1 hn
    by_cases hfood : c = s.food
    · subst hfood
      cases hp : place (s.food :: body s) maxAttempts s.draws with
      | accepted p => exact ⟨_, exec_geTick_of_accepted hg hv hc hp⟩
      | exhausted => exact ⟨_, exec_geTick_of_exhausted hg hc hp⟩
      | ranOut => exact absurd (place_eq_ranOut_iff.1 hp).1 (Nat.not_lt.2 hdraws)
    · by_cases hbody : c ∈ body s
      · exact ⟨_, exec_geTick_of_collision hg hc hfood hbody⟩
      · exact ⟨_, exec_geTick_of_free hg hv hc hfood hbody⟩

theorem exec_geQuery_completes {sel : Byte} (hsel : selectorDefined sel = true) :
    ∃ t, exec (.geQuery sel) s = .next t := by
  have hq : selectorOf sel ≠ none := by rw [Ne, selectorOf_eq_none_iff, selectorReserved_eq, hsel]; decide
  obtain ⟨q, hq⟩ := Option.ne_none_iff_exists'.1 hq
  exact ⟨_, exec_geQuery hq (by split <;> assumption)⟩

/-- With a game and a written framebuffer no well-formed instruction faults, but for a tick short of draws. -/
theorem exec_completes {i : Instr} (hwf : i.wellFormed = true) (hdraws : i = .geTick → 512 ≤ s.draws.length) :
    ∃ t, exec i s = .next t := by
  cases i with
  | mdInit => exact ⟨_, exec_mdInit s⟩
  | mdGetpix row col => exact ⟨_, exec_mdGetpix row col hv⟩
  | mdFlush => exact ⟨_, exec_mdFlush hv⟩
  | geReset => exact ⟨_, execGeReset_eq s⟩
  | geSteer x y => exact ⟨_, exec_geSteer x y hg⟩
  | geTick => exact exec_geTick_completes hg hv (hdraws rfl)
  | geBlink => exact ⟨_, exec_geBlink hg hv⟩
  | geQuery sel => exact exec_geQuery_completes hg hv hwf
  | _ => exact ⟨_, rfl⟩

end Completes

/-- Settles O52: the step runs the decoded instruction, which is a well-formed command, in a state with a game and a
written framebuffer. -/
theorem everyCommandCompletes : Obligations.EveryCommandCompletes := by
  unfold Obligations.EveryCommandCompletes
  intro s c rest i hi hg hc hp hd hdraws
  obtain ⟨hcommand, hwf⟩ := encode_of_decode hd
  obtain ⟨t, ht⟩ := exec_completes (s := { s with port := rest, draws := c.draws }) hg (hi.fb_written hg) hwf hdraws
  obtain ⟨res, hres, -⟩ := everyCommandReturnsOneWord _ t i c.word hcommand ht
  refine ⟨t, (step_of_decode hc (fetch_of_port hi.no_frame hp) hd).trans ht, (exec_sameInput ht).port, ?_⟩
  rw [hres.results, List.length_append, List.length_singleton]

/-! ### The host's scheduler and loop (60_exceptions.md rules R215 to R217) -/

section Task

variable {bits : Nat} (now : BitVec bits) (t : Task bits)

theorem taskDue_iff :
    taskDue now t = true ↔ t.interval ≤ (now.toNat + (2 ^ bits - t.lastFired.toNat)) % 2 ^ bits := by
  rw [taskDue, decide_eq_true_iff, BitVec.toNat_sub, Nat.add_comm]

theorem taskCheck_interval : (taskCheck now t).interval = t.interval := by
  unfold taskCheck
  split <;> rfl

theorem taskCheck_lastFired : (taskCheck now t).lastFired = if taskDue now t = true then now else t.lastFired := by
  unfold taskCheck
  split <;> rfl

end Task

/-- Settles O56: a difference of times is the subtraction modulo 2^bits. -/
theorem schedulerDueTest : Obligations.SchedulerDueTest := by
  unfold Obligations.SchedulerDueTest
  exact fun _ now t => ⟨taskDue_iff now t, taskCheck_interval now t, taskCheck_lastFired now t⟩

/-- Settles O57: each word of the loop is the encoder's word of its command. -/
theorem hostLoopOrder : Obligations.HostLoopOrder := by
  unfold Obligations.HostLoopOrder
  intro bits h v nowFrame nowBlink draws sched
  have hsteer : decode (.command (wordS 0x9 h v)) = .ok (.geSteer h v) := decode_encode (.geSteer h v) rfl
  have htick : decode (.command (wordN 0xA)) = .ok .geTick := decode_encode .geTick rfl
  have hblink : decode (.command (wordN 0xB)) = .ok .geBlink := decode_encode .geBlink rfl
  simp only [loopCommands, List.map_append, List.map_cons, List.map_nil,
    apply_ite (List.map fun c : HostCommand => decode (.command c.word)), hsteer, htick, hblink]

end Sys2Proof.Machine

/-! # Reset and hazards (70_reset_and_hazards.md): the state after reset, waiting, reads of unwritten state, the frames
and clock pulses of each command, and what the game logic does not read -/

namespace Sys2Proof.Machine

/-! ### Power-on reset and waiting (70_reset_and_hazards.md rules R240, R241) -/

/-- Settles O11: each value is the one `State.reset` writes. -/
theorem resetLeavesLinesIdleAndNothingWritten : Obligations.ResetLeavesLinesIdleAndNothingWritten := by
  unfold Obligations.ResetLeavesLinesIdleAndNothingWritten
  exact ⟨rfl, rfl, rfl, rfl, rfl, rfl⟩

/-- After reset no game is constructed, so the claims about one are empty. -/
theorem inv_reset : Inv State.reset where
  game := nofun
  fb_written := nofun
  cs_high := rfl
  clk_low := rfl
  no_draws := rfl
  no_frame := rfl

/-- Settles O49: the invariant's base case, and the waveform of no frame. -/
theorem resetMeetsTheInvariant : Obligations.ResetMeetsTheInvariant := by
  unfold Obligations.ResetMeetsTheInvariant
  exact ⟨inv_reset, rfl⟩

theorem fetch_eq_none {s : State} (hn : s.pendingFrame = none) (hp : s.port = []) : fetch s = none := by
  simp only [fetch, hn, hp]

/-- Settles O10: there is nothing to fetch. -/
theorem stepWaitsWithoutCommand : Obligations.StepWaitsWithoutCommand := by
  unfold Obligations.StepWaitsWithoutCommand
  intro s hc hn hp
  rw [step, if_pos hc, fetch_eq_none hn hp]

/-! ### Reads of unwritten state (70_reset_and_hazards.md rule R244) -/

theorem exec_geTick_of_unwritten {s : State} (hg : s.geValid = false) : exec .geTick s = .fault .gameUnwritten :=
  if_neg (by simp [hg])

/-- Settles O43: each command's fault; a defined selector reads a row or the game. -/
theorem readsOfUnwrittenStateFault : Obligations.ReadsOfUnwrittenStateFault := by
  unfold Obligations.ReadsOfUnwrittenStateFault
  refine fun s => ⟨fun hv => ⟨fun r c => exec_mdGetpix_of_unwritten r c hv, exec_mdFlush_of_unwritten hv, ?_⟩,
    fun hg => ⟨fun h v => exec_geSteer_of_unwritten h v hg, exec_geTick_of_unwritten hg,
      exec_geBlink_of_unwritten hg, ?_⟩⟩
  · intro sel hrow hle
    obtain ⟨q, hq⟩ := selectorOf_of_defined (sel := sel) (by omega)
    exact exec_geQuery_of_unwritten_row hq hrow hv
  · intro sel hsel
    obtain ⟨q, hq⟩ := selectorOf_of_defined (sel := sel) (by omega)
    exact exec_geQuery_of_unwritten_game hq (by omega) hg

/-! ### Frames and clock pulses (70_reset_and_hazards.md rule R252) -/

/-- One rising clock edge for each bit sent (40_matrix_driver.md rule R112). -/
theorem count_rising_bitEvents (b : Bool) : (bitEvents b).count (.clk true) = 1 := by
  cases b <;> rfl

theorem count_rising_writeEvents (f : Frame) : (writeEvents f).count (.clk true) = 16 := by
  have hbits : ((frameBits (frameWord f.addr f.data)).flatMap bitEvents).count (.clk true) = 16 := by
    simp only [List.count_flatMap, Function.comp_def, count_rising_bitEvents, List.map_const', List.sum_replicate,
      frameBits_length]
    rfl
  rw [writeEvents, frameEvents, List.count_cons, List.count_append, hbits]
  rfl

theorem count_rising_flatMap_writeEvents (fs : List Frame) :
    (fs.flatMap writeEvents).count (.clk true) = 16 * fs.length := by
  induction fs with
  | nil => rfl
  | cons f fs ih =>
    rw [List.flatMap_cons, List.count_append, count_rising_writeEvents, ih, List.length_cons]
    omega

theorem Sent.count_rising {fs : List Frame} {s t : State} (k : Sent fs s t) :
    (lineTrace t).count (.clk true) = (lineTrace s).count (.clk true) + 16 * fs.length := by
  rw [lineTrace, k.frames, List.flatMap_append, List.count_append, count_rising_flatMap_writeEvents fs,
    lineTrace]

/-- How many frames an instruction sends when it completes. -/
def frameCount : Instr → Nat
  | .mdInit => 13
  | .mdFlush | .geReset | .geTick | .geBlink => 8
  | .mdSetpix _ _ _ | .mdGetpix _ _ | .geSteer _ _ | .geQuery _ => 0
  | _ => 1

theorem frameCount_of_encode_frame {i : Instr} {w : FrameWord} (h : encode i = .frame w) : frameCount i = 1 := by
  cases i <;> cases h <;> rfl

theorem exec_sent_frameCount {i : Instr} {s t : State} (h : exec i s = .next t) :
    ∃ fs, Sent fs s t ∧ fs.length = frameCount i := by
  cases exec_effect h with
  | mdInit => exact ⟨_, (sent_cleared s).flushed 0, rfl⟩
  | mdSetint => exact ⟨_, (sent_emitFrames [_] s).ended 0, rfl⟩
  | mdShdn => exact ⟨_, (sent_emitFrames [_] s).ended 0, rfl⟩
  | mdFlush => exact ⟨_, sent_flushed 0 s, rfl⟩
  | geReset => exact ⟨_, sent_rows_flushed 0 (construct_frames s) (construct_lines s), rfl⟩
  | geTick _ ht => exact ⟨_, execGeTick_sent ht, rfl⟩
  | geBlink => exact ⟨_, sent_rows_flushed 0 (toggleFood_frames s) (toggleFood_lines s), rfl⟩
  | frame _ _ _ hi => exact ⟨_, sent_emitFrames [_] s, (frameCount_of_encode_frame hi).symm⟩
  | mdSetpix | mdGetpix | geSteer | geQuery => exact ⟨[], sent_nil rfl rfl, rfl⟩

/-- Settles O26: each instruction sends its `frameCount`, and each frame has 16 rising clock edges. -/
theorem framesAndPulsesPerCommand : Obligations.FramesAndPulsesPerCommand := by
  unfold Obligations.FramesAndPulsesPerCommand
  intro s t i n h hi
  have hcount : frameCount i = n := by
    rcases hi with ⟨rfl, rfl⟩ | ⟨⟨_, rfl⟩, rfl⟩ | ⟨⟨_, rfl⟩, rfl⟩ | ⟨rfl | rfl | rfl | rfl, rfl⟩ |
      ⟨⟨_, _, _, rfl⟩ | ⟨_, _, rfl⟩ | ⟨_, _, rfl⟩ | ⟨_, rfl⟩, rfl⟩ <;> rfl
  obtain ⟨fs, hsent, hlen⟩ := exec_sent_frameCount h
  rw [← hcount, ← hlen]
  exact ⟨by rw [hsent.frames, List.length_append], hsent.count_rising⟩

/-! ### Game logic reads neither pixels nor the blink phase (70_reset_and_hazards.md rule R246) -/

section SameLogic

variable {s s' : State} (a : SameLogic s s')

include a

theorem SameLogic.body_eq : body s' = body s := by
  rw [body, a.seg, a.len, body]

theorem SameLogic.headOf_eq : headOf s' = headOf s := by
  rw [headOf, segAt, a.seg, headOf, segAt]

/-! Each operation keeps two states of one logic so; the result words may differ, for a query or MD.GETPIX may return
a pixel or the phase. -/

theorem SameLogic.ended (res res' : Word) : SameLogic (ended res s) (ended res' s') :=
  ⟨a.seg, a.len, a.dir, a.pend, a.food, a.gstate, a.geValid, a.fbValid, a.fresh, a.cfg, rfl⟩

theorem SameLogic.emitFrames (fs fs' : List Frame) : SameLogic (emitFrames fs s) (emitFrames fs' s') :=
  ⟨a.seg, a.len, a.dir, a.pend, a.food, a.gstate, a.geValid, a.fbValid, a.fresh, a.cfg, a.draws⟩

theorem SameLogic.flushed (res res' : Word) : SameLogic (flushed res s) (flushed res' s') := by
  rw [flushed_eq_ended, flushed_eq_ended]
  exact (a.emitFrames _ _).ended res res'

theorem SameLogic.setPixel (r c : BitVec 3) (b b' : Bool) :
    SameLogic (setPixel r c b s) (setPixel r c b' s') :=
  ⟨a.seg, a.len, a.dir, a.pend, a.food, a.gstate, a.geValid, a.fbValid, a.fresh, a.cfg, a.draws⟩

theorem SameLogic.cleared : SameLogic (cleared s) (cleared s') :=
  ⟨a.seg, a.len, a.dir, a.pend, a.food, a.gstate, a.geValid, rfl, a.fresh, a.cfg, a.draws⟩

/-- A construction reads the configuration and `fresh` alone. -/
theorem SameLogic.construct : SameLogic (construct s) (construct s') := by
  constructor <;> simp only [construct_seg, construct_len, construct_dir, construct_pend, construct_food,
    construct_gstate, construct_geValid, construct_fbValid, construct_fresh, construct_cfg, construct_draws,
    a.cfg, a.fresh, a.draws]

theorem SameLogic.steered (h v : BitVec 12) : SameLogic (steered h v s) (steered h v s') := by
  have hpend : (Machine.steered h v s').pend = (Machine.steered h v s).pend := by
    simp only [Machine.steered, a.cfg, a.dir, a.pend]
  exact ⟨a.seg, a.len, a.dir, hpend, a.food, a.gstate, a.geValid, a.fbValid, a.fresh, a.cfg, a.draws⟩

/-- The phase and the food's pixel are outside the logic. -/
theorem SameLogic.toggleFood : SameLogic (toggleFood s) (toggleFood s') := by
  obtain ⟨hseg, hlen, hdir, hpend, hfood, hgstate, hgeValid, hfbValid, hfresh, hcfg, hdraws⟩ := a
  constructor <;> simpa

theorem SameLogic.commitGrow (p : Pos) : SameLogic (commitGrow s.food p s) (commitGrow s'.food p s') := by
  constructor <;> simp [a.seg, a.len, a.pend, a.food, a.gstate, a.geValid, a.fbValid, a.fresh, a.cfg, a.draws]

theorem SameLogic.commitMove (c : Pos) : SameLogic (commitMove c s) (commitMove c s') := by
  constructor <;> simp [a.seg, a.len, a.pend, a.food, a.gstate, a.geValid, a.fbValid, a.fresh, a.cfg, a.draws]

end SameLogic

/-- A tick of `s'` that keeps the logic of `t` and returns the code that `s` returned on the way to `t`. -/
def TicksAlike (s s' t : State) : Prop :=
  ∃ t', exec .geTick s' = .next t' ∧ SameLogic t t' ∧ ∃ code : Word, Returned code s t ∧ Returned code s' t'

theorem ticksAlike_flushed {s s' u u' : State} {code : Word} (h : exec .geTick s' = .next (flushed code u'))
    (b : SameLogic u u') (hresults : u.results = s.results) (hresults' : u'.results = s'.results) :
    TicksAlike s s' (flushed code u) :=
  ⟨_, h, b.flushed code code, code, returned_flushed code hresults, returned_flushed code hresults'⟩

theorem ticksAlike_restarted {s s' : State} {cause : Cause} (a : SameLogic s s')
    (h : exec .geTick s' = .next (restarted cause s')) : TicksAlike s s' (restarted cause s) :=
  ticksAlike_flushed h a.construct rfl rfl

/-- Each of the five ways a tick completes turns on the candidate, the food, the body and the draws, which agree. -/
theorem SameLogic.ticksAlike {s s' t : State} (a : SameLogic s s') (h : execGeTick s = .next t) :
    TicksAlike s s' t := by
  obtain ⟨hg, hcases⟩ := execGeTick_cases h
  have hg' : s'.geValid = true := a.geValid.trans hg
  rw [← a.pend, ← a.headOf_eq, ← a.body_eq, ← a.draws, ← a.fbValid, neighbour_eq_none_iff] at hcases
  simp only [neighbour_eq_some_iff] at hcases
  rcases hcases with ⟨hoff, rfl⟩ | ⟨p, hc, hp, hv, rfl⟩ | ⟨hc, hp, rfl⟩ | ⟨c, hc, hf, hb, rfl⟩ |
    ⟨c, hc, hf, hb, hv, rfl⟩
  · exact ticksAlike_restarted a (exec_geTick_of_stepsOff hg' hoff)
  · rw [← a.food] at hc hp
    exact ticksAlike_flushed (exec_geTick_of_accepted hg' hv hc hp) (a.commitGrow p) rfl rfl
  · rw [← a.food] at hc hp
    exact ticksAlike_restarted a (exec_geTick_of_exhausted hg' hc hp)
  · rw [← a.food] at hf
    exact ticksAlike_restarted a (exec_geTick_of_collision hg' hc hf hb)
  · rw [← a.food] at hf
    exact ticksAlike_flushed (exec_geTick_of_free hg' hv hc hf hb) (a.commitMove c) rfl rfl

/-- A query that completes found written the part of the state its selector reads. -/
theorem written_of_exec_geQuery {s t : State} {sel : Byte} {q : Selector} (hq : selectorOf sel = some q)
    (h : exec (.geQuery sel) s = .next t) : if 0x80 ≤ sel.toNat then s.fbValid = true else s.geValid = true := by
  split
  · next hrow =>
    refine Bool.of_not_eq_false fun hv => ?_
    rw [exec_geQuery_of_unwritten_row hq hrow hv] at h
    cases h
  · next hgame =>
    refine Bool.of_not_eq_false fun hg => ?_
    rw [exec_geQuery_of_unwritten_game hq (Nat.not_le.1 hgame) hg] at h
    cases h

/-- An instruction that completes in one of two states of one logic completes in the other, and leaves one logic. -/
theorem SameLogic.exec {i : Instr} {s s' t : State} (a : SameLogic s s') (h : exec i s = .next t) :
    ∃ t', exec i s' = .next t' ∧ SameLogic t t' := by
  cases exec_effect h with
  | mdInit => exact ⟨_, exec_mdInit s', a.cleared.flushed 0 0⟩
  | mdSetpix row col on => exact ⟨_, exec_mdSetpix s' row col on, (a.setPixel row col on on).ended 0 0⟩
  | mdGetpix row col hv => exact ⟨_, exec_mdGetpix row col (a.fbValid.trans hv), a.ended _ _⟩
  | mdSetint level => exact ⟨_, exec_mdSetint s' level, (a.emitFrames _ _).ended 0 0⟩
  | mdShdn sd => exact ⟨_, exec_mdShdn s' sd, (a.emitFrames _ _).ended 0 0⟩
  | mdFlush hv => exact ⟨_, exec_mdFlush (a.fbValid.trans hv), a.flushed 0 0⟩
  | geReset => exact ⟨_, execGeReset_eq s', a.construct.flushed 0 0⟩
  | geSteer x y hg => exact ⟨_, exec_geSteer x y (a.geValid.trans hg), (a.steered x y).ended 0 0⟩
  | geTick _ ht =>
    obtain ⟨t', h', b, -⟩ := a.ticksAlike ht
    exact ⟨t', h', b⟩
  | geBlink hg hv =>
    exact ⟨_, exec_geBlink (a.geValid.trans hg) (a.fbValid.trans hv), a.toggleFood.flushed 0 0⟩
  | geQuery sel q hq =>
    have hw := written_of_exec_geQuery hq h
    rw [← a.fbValid, ← a.geValid] at hw
    exact ⟨_, exec_geQuery hq hw, a.ended _ _⟩
  | frame _ addr data hi => exact ⟨_, exec_of_encode_frame hi s', a.emitFrames _ _⟩

/-- Settles O47: the logic is kept by every instruction, and a tick's code is read off the way it ends. -/
theorem gameLogicIgnoresPixelsAndPhase : Obligations.GameLogicIgnoresPixelsAndPhase := by
  unfold Obligations.GameLogicIgnoresPixelsAndPhase
  intro s s' t i a h
  by_cases hi : i = .geTick
  · subst hi
    obtain ⟨t', h', b, hcode⟩ := a.ticksAlike h
    exact ⟨t', h', b, fun _ => hcode⟩
  · obtain ⟨t', h', b⟩ := a.exec h
    exact ⟨t', h', b, fun htick => absurd htick hi⟩

end Sys2Proof.Machine
